-- ==== Sys2Proof/Word.lean ====
section
/-! DEFINITION. The two word sizes of the machine: 8-bit bytes and 16-bit addresses and registers
(00_scope R5). Helpers over them are in Machine/Bits.lean. -/

namespace Sys2Proof

/-- The unit of addressing, "the 8-bit byte" (20_memory R70); also an accumulator (10_state R20). -/
abbrev Byte := BitVec 8

/-- A 16-bit register or address (10_state R21 to R23, 20_memory R70). -/
abbrev Word := BitVec 16

end Sys2Proof
end

