-- ==== Sys2Proof/Machine/Bits.lean ====
section
/-! DEFINITION. Byte order, extension and bit-field helpers (00_scope R7, 20_memory R84). -/

namespace Sys2Proof.Machine

/-- The concatenation `(h,l)` with h in the high bits (R7, R84). -/
def joinBytes (h l : Byte) : Word := h ++ l

/-- `v[15:8]`. -/
def hiByte (v : Word) : Byte := v.extractLsb' 8 8

/-- `v[7:0]`. -/
def loByte (v : Word) : Byte := v.extractLsb' 0 8

/-- `zext_16(v)` (R7). -/
def zext16 (v : Byte) : Word := v.zeroExtend 16

/-- `sext_16(v)` (R7). -/
def sext16 (v : Byte) : Word := v.signExtend 16

/-- A flag as the number 0 or 1 (R7: "Booleans are 0 and 1"). -/
def bitNat (b : Bool) : Nat := if b then 1 else 0

/-- A byte from its bits, bit 7 first. -/
def byteOfBits (b7 b6 b5 b4 b3 b2 b1 b0 : Bool) : Byte :=
  BitVec.ofNat 8
    (128 * bitNat b7 + 64 * bitNat b6 + 32 * bitNat b5 + 16 * bitNat b4
      + 8 * bitNat b3 + 4 * bitNat b2 + 2 * bitNat b1 + bitNat b0)

/-- Per bit: `x` where `sel` is 1, `y` where it is 0 (46_via_registers R303). -/
def muxBits (sel x y : Byte) : Byte := (sel &&& x) ||| (~~~sel &&& y)

end Sys2Proof.Machine
end

