-- ==== Sys2Proof/Syntax.lean ====
section
/-! DEFINITION. The instructions: one constructor per mnemonic of spec/opcode_table.json, its argument
the operand form, so that a row of the table is a constructor with a form (30_encoding R101, R109).
The 53 unrecognised rows are `unrecognised` with their byte (R110). -/

namespace Sys2Proof

/-- The operand `M` of an accumulator instruction: IMM8, DIR, IDX, EXT (30_encoding R101, R120(e)). -/
inductive Operand8 where
  | imm (v : Byte) | dir (a : Byte) | idx (off : Byte) | ext (a : Word)
  deriving DecidableEq, Repr

/-- The operand `M16` of LDX, LDS, CPX: IMM16, DIR, IDX, EXT. -/
inductive Operand16 where
  | imm (v : Word) | dir (a : Byte) | idx (off : Byte) | ext (a : Word)
  deriving DecidableEq, Repr

/-- The address forms of a store: DIR, IDX, EXT (there is no immediate form, R122). -/
inductive StoreAddr where
  | dir (a : Byte) | idx (off : Byte) | ext (a : Word)
  deriving DecidableEq, Repr

/-- The address forms of a memory read-modify-write, of CLR, TST, JMP and JSR: IDX, EXT (no DIR form). -/
inductive MemAddr where
  | idx (off : Byte) | ext (a : Word)
  deriving DecidableEq, Repr

/-- The operand of ADX: an unsigned immediate byte, or a 16-bit memory operand (41_arithmetic R178). -/
inductive AdxOperand where
  | imm (v : Byte) | ext (a : Word)
  deriving DecidableEq, Repr

/-- Every instruction of 30_encoding R109, and the unrecognised opcodes of R110. -/
inductive Instr where
  -- Loads, stores, transfers, stack (40_load_store_transfer R121 to R134).
  | ldaa (m : Operand8) | ldab (m : Operand8) | staa (m : StoreAddr) | stab (m : StoreAddr)
  | ldx (m : Operand16) | lds (m : Operand16) | stx (m : StoreAddr) | sts (m : StoreAddr) | tab
  | tba | tap | tpa | tsx | txs | psha | pshb | pula | pulb
  -- Arithmetic (41_arithmetic R151 to R169, R178).
  | adda (m : Operand8) | addb (m : Operand8) | adca (m : Operand8) | adcb (m : Operand8) | aba
  | suba (m : Operand8) | subb (m : Operand8) | sbca (m : Operand8) | sbcb (m : Operand8) | sba
  | cmpa (m : Operand8) | cmpb (m : Operand8) | cba | nega | negb | neg (m : MemAddr) | inca
  | incb | inc (m : MemAddr) | deca | decb | dec (m : MemAddr) | clra | clrb | clr (m : MemAddr)
  | tsta | tstb | tst (m : MemAddr) | daa | inx | dex | ins | des | cpx (m : Operand16)
  | adx (m : AdxOperand)
  -- Logic, shifts, memory-immediate (42_logic_shift R190 to R204).
  | anda (m : Operand8) | andb (m : Operand8) | bita (m : Operand8) | bitb (m : Operand8)
  | oraa (m : Operand8) | orab (m : Operand8) | eora (m : Operand8) | eorb (m : Operand8) | coma
  | comb | com (m : MemAddr) | asla | aslb | asl (m : MemAddr) | asra | asrb | asr (m : MemAddr)
  | lsra | lsrb | lsr (m : MemAddr) | rola | rolb | rol (m : MemAddr) | rora | rorb
  | ror (m : MemAddr) | nim (imm off : Byte) | oim (imm off : Byte) | xim (imm off : Byte)
  | tmm (imm off : Byte)
  -- Branches, jumps, calls (43_branch_jump R222 to R240).
  | bra (rel : Byte) | bhi (rel : Byte) | bls (rel : Byte) | bcc (rel : Byte) | bcs (rel : Byte)
  | bne (rel : Byte) | beq (rel : Byte) | bvc (rel : Byte) | bvs (rel : Byte) | bpl (rel : Byte)
  | bmi (rel : Byte) | bge (rel : Byte) | blt (rel : Byte) | bgt (rel : Byte) | ble (rel : Byte)
  | jmp (m : MemAddr) | jsr (m : MemAddr) | bsr (rel : Byte) | rts
  -- System and unrecognised opcodes (44_system R250 to R262).
  | nop | clc | sec | clv | sev | cli | sei | swi | rti | wai
  | unrecognised (op : Byte)
  deriving DecidableEq, Repr

end Sys2Proof
end

