-- ==== Sys2Proof/WellFormed.lean ====
section
/-! DEFINITION. Which terms of `Instr` are instructions of the machine. Every operand byte is legal
(30_encoding R111), so the only checks are on the opcode sets: an `unrecognised` byte must be one
(R110), and the memory-immediate group exists only when its switch is on
(93_implementation_defined U9). -/

namespace Sys2Proof

/-- The 53 unrecognised opcode bytes, as 30_encoding R110 lists them. -/
def unrecognisedOpcodes : List Byte :=
  [0x00, 0x02, 0x03, 0x04, 0x05, 0x12, 0x13, 0x14, 0x15, 0x18, 0x1A, 0x1C,
   0x1D, 0x1E, 0x1F, 0x21, 0x38, 0x3A, 0x3C, 0x3D, 0x41, 0x42, 0x45, 0x4B,
   0x4E, 0x51, 0x52, 0x55, 0x5B, 0x5E, 0x61, 0x62, 0x65, 0x6B, 0x83, 0x87,
   0x8F, 0x93, 0x9D, 0xA3, 0xB3, 0xC3, 0xC7, 0xCC, 0xCD, 0xCF, 0xD3, 0xDC,
   0xDD, 0xE3, 0xED, 0xF3, 0xFD]

/-- The opcodes of NIM, OIM, XIM, TMM, unrecognised when the switch of U9(a) removes them. -/
def memImmOpcodes : List Byte := [0x71, 0x72, 0x75, 0x7B]

/-- `memImm` says whether NIM, OIM, XIM and TMM exist (`Config.memImm`). -/
def Instr.wellFormed (memImm : Bool) : Instr → Bool
  | .unrecognised op => unrecognisedOpcodes.contains op || (!memImm && memImmOpcodes.contains op)
  | .nim _ _ | .oim _ _ | .xim _ _ | .tmm _ _ => memImm
  | .ldaa _ | .ldab _ | .staa _ | .stab _ | .ldx _ | .lds _ | .stx _ | .sts _ | .tab | .tba
  | .tap | .tpa | .tsx | .txs | .psha | .pshb | .pula | .pulb | .adda _ | .addb _ | .adca _
  | .adcb _ | .aba | .suba _ | .subb _ | .sbca _ | .sbcb _ | .sba | .cmpa _ | .cmpb _ | .cba
  | .nega | .negb | .neg _ | .inca | .incb | .inc _ | .deca | .decb | .dec _ | .clra | .clrb
  | .clr _ | .tsta | .tstb | .tst _ | .daa | .inx | .dex | .ins | .des | .cpx _ | .adx _
  | .anda _ | .andb _ | .bita _ | .bitb _ | .oraa _ | .orab _ | .eora _ | .eorb _ | .coma
  | .comb | .com _ | .asla | .aslb | .asl _ | .asra | .asrb | .asr _ | .lsra | .lsrb | .lsr _
  | .rola | .rolb | .rol _ | .rora | .rorb | .ror _ | .bra _ | .bhi _ | .bls _ | .bcc _
  | .bcs _ | .bne _ | .beq _ | .bvc _ | .bvs _ | .bpl _ | .bmi _ | .bge _ | .blt _ | .bgt _
  | .ble _ | .jmp _ | .jsr _ | .bsr _ | .rts | .nop | .clc | .sec | .clv | .sev | .cli | .sei
  | .swi | .rti | .wai => true

end Sys2Proof
end

