-- ==== Sys2Proof/Decode.lean ====
section
/-! DEFINITION. The decoder, "a 256-entry table on the first byte" (30_encoding R100, R109), and the
encoder. `memImm` is the switch of 93_implementation_defined U9(a). -/

namespace Sys2Proof

open Sys2Proof.Machine (joinBytes hiByte loByte)

/-- What follows an opcode byte (30_encoding R101): nothing (INH), one byte (IMM8, DIR, IDX, REL), a
16-bit value high byte first (IMM16, EXT), an immediate then an offset (IMX), or no instruction. -/
inductive OpForm where
  | none
  | inh (i : Instr)
  | byte (f : Byte → Instr)
  | word (f : Word → Instr)
  | imx (f : Byte → Byte → Instr)

/-- Row 0 of the opcode map of 30_encoding R109: opcodes 0x00 to 0x0F. -/
def opRow0 : List OpForm :=
  [.none, .inh .nop, .none, .none, .none, .none, .inh .tap, .inh .tpa, .inh .inx, .inh .dex,
   .inh .clv, .inh .sev, .inh .clc, .inh .sec, .inh .cli, .inh .sei]

/-- Row 1 of the opcode map of 30_encoding R109: opcodes 0x10 to 0x1F. -/
def opRow1 : List OpForm :=
  [.inh .sba, .inh .cba, .none, .none, .none, .none, .inh .tab, .inh .tba, .none, .inh .daa,
   .none, .inh .aba, .none, .none, .none, .none]

/-- Row 2 of the opcode map of 30_encoding R109: opcodes 0x20 to 0x2F. -/
def opRow2 : List OpForm :=
  [.byte .bra, .none, .byte .bhi, .byte .bls, .byte .bcc, .byte .bcs, .byte .bne,
   .byte .beq, .byte .bvc, .byte .bvs, .byte .bpl, .byte .bmi, .byte .bge, .byte .blt,
   .byte .bgt, .byte .ble]

/-- Row 3 of the opcode map of 30_encoding R109: opcodes 0x30 to 0x3F. -/
def opRow3 : List OpForm :=
  [.inh .tsx, .inh .ins, .inh .pula, .inh .pulb, .inh .des, .inh .txs, .inh .psha,
   .inh .pshb, .none, .inh .rts, .none, .inh .rti, .none, .none, .inh .wai, .inh .swi]

/-- Row 4 of the opcode map of 30_encoding R109: opcodes 0x40 to 0x4F. -/
def opRow4 : List OpForm :=
  [.inh .nega, .none, .none, .inh .coma, .inh .lsra, .none, .inh .rora, .inh .asra,
   .inh .asla, .inh .rola, .inh .deca, .none, .inh .inca, .inh .tsta, .none, .inh .clra]

/-- Row 5 of the opcode map of 30_encoding R109: opcodes 0x50 to 0x5F. -/
def opRow5 : List OpForm :=
  [.inh .negb, .none, .none, .inh .comb, .inh .lsrb, .none, .inh .rorb, .inh .asrb,
   .inh .aslb, .inh .rolb, .inh .decb, .none, .inh .incb, .inh .tstb, .none, .inh .clrb]

/-- Row 6 of the opcode map of 30_encoding R109: opcodes 0x60 to 0x6F. -/
def opRow6 : List OpForm :=
  [.byte fun o => .neg (.idx o), .none, .none, .byte fun o => .com (.idx o),
   .byte fun o => .lsr (.idx o), .none, .byte fun o => .ror (.idx o),
   .byte fun o => .asr (.idx o), .byte fun o => .asl (.idx o), .byte fun o => .rol (.idx o),
   .byte fun o => .dec (.idx o), .none, .byte fun o => .inc (.idx o),
   .byte fun o => .tst (.idx o), .byte fun o => .jmp (.idx o), .byte fun o => .clr (.idx o)]

/-- Row 7 of the opcode map of 30_encoding R109: opcodes 0x70 to 0x7F. -/
def opRow7 : List OpForm :=
  [.word fun a => .neg (.ext a), .imx .nim, .imx .oim, .word fun a => .com (.ext a),
   .word fun a => .lsr (.ext a), .imx .xim, .word fun a => .ror (.ext a),
   .word fun a => .asr (.ext a), .word fun a => .asl (.ext a), .word fun a => .rol (.ext a),
   .word fun a => .dec (.ext a), .imx .tmm, .word fun a => .inc (.ext a),
   .word fun a => .tst (.ext a), .word fun a => .jmp (.ext a), .word fun a => .clr (.ext a)]

/-- Row 8 of the opcode map of 30_encoding R109: opcodes 0x80 to 0x8F. -/
def opRow8 : List OpForm :=
  [.byte fun v => .suba (.imm v), .byte fun v => .cmpa (.imm v),
   .byte fun v => .sbca (.imm v), .none, .byte fun v => .anda (.imm v),
   .byte fun v => .bita (.imm v), .byte fun v => .ldaa (.imm v), .none,
   .byte fun v => .eora (.imm v), .byte fun v => .adca (.imm v),
   .byte fun v => .oraa (.imm v), .byte fun v => .adda (.imm v),
   .word fun v => .cpx (.imm v), .byte .bsr, .word fun v => .lds (.imm v), .none]

/-- Row 9 of the opcode map of 30_encoding R109: opcodes 0x90 to 0x9F. -/
def opRow9 : List OpForm :=
  [.byte fun a => .suba (.dir a), .byte fun a => .cmpa (.dir a),
   .byte fun a => .sbca (.dir a), .none, .byte fun a => .anda (.dir a),
   .byte fun a => .bita (.dir a), .byte fun a => .ldaa (.dir a),
   .byte fun a => .staa (.dir a), .byte fun a => .eora (.dir a),
   .byte fun a => .adca (.dir a), .byte fun a => .oraa (.dir a),
   .byte fun a => .adda (.dir a), .byte fun a => .cpx (.dir a), .none,
   .byte fun a => .lds (.dir a), .byte fun a => .sts (.dir a)]

/-- Row A of the opcode map of 30_encoding R109: opcodes 0xA0 to 0xAF. -/
def opRowA : List OpForm :=
  [.byte fun o => .suba (.idx o), .byte fun o => .cmpa (.idx o),
   .byte fun o => .sbca (.idx o), .none, .byte fun o => .anda (.idx o),
   .byte fun o => .bita (.idx o), .byte fun o => .ldaa (.idx o),
   .byte fun o => .staa (.idx o), .byte fun o => .eora (.idx o),
   .byte fun o => .adca (.idx o), .byte fun o => .oraa (.idx o),
   .byte fun o => .adda (.idx o), .byte fun o => .cpx (.idx o),
   .byte fun o => .jsr (.idx o), .byte fun o => .lds (.idx o), .byte fun o => .sts (.idx o)]

/-- Row B of the opcode map of 30_encoding R109: opcodes 0xB0 to 0xBF. -/
def opRowB : List OpForm :=
  [.word fun a => .suba (.ext a), .word fun a => .cmpa (.ext a),
   .word fun a => .sbca (.ext a), .none, .word fun a => .anda (.ext a),
   .word fun a => .bita (.ext a), .word fun a => .ldaa (.ext a),
   .word fun a => .staa (.ext a), .word fun a => .eora (.ext a),
   .word fun a => .adca (.ext a), .word fun a => .oraa (.ext a),
   .word fun a => .adda (.ext a), .word fun a => .cpx (.ext a),
   .word fun a => .jsr (.ext a), .word fun a => .lds (.ext a), .word fun a => .sts (.ext a)]

/-- Row C of the opcode map of 30_encoding R109: opcodes 0xC0 to 0xCF. -/
def opRowC : List OpForm :=
  [.byte fun v => .subb (.imm v), .byte fun v => .cmpb (.imm v),
   .byte fun v => .sbcb (.imm v), .none, .byte fun v => .andb (.imm v),
   .byte fun v => .bitb (.imm v), .byte fun v => .ldab (.imm v), .none,
   .byte fun v => .eorb (.imm v), .byte fun v => .adcb (.imm v),
   .byte fun v => .orab (.imm v), .byte fun v => .addb (.imm v), .none, .none,
   .word fun v => .ldx (.imm v), .none]

/-- Row D of the opcode map of 30_encoding R109: opcodes 0xD0 to 0xDF. -/
def opRowD : List OpForm :=
  [.byte fun a => .subb (.dir a), .byte fun a => .cmpb (.dir a),
   .byte fun a => .sbcb (.dir a), .none, .byte fun a => .andb (.dir a),
   .byte fun a => .bitb (.dir a), .byte fun a => .ldab (.dir a),
   .byte fun a => .stab (.dir a), .byte fun a => .eorb (.dir a),
   .byte fun a => .adcb (.dir a), .byte fun a => .orab (.dir a),
   .byte fun a => .addb (.dir a), .none, .none, .byte fun a => .ldx (.dir a),
   .byte fun a => .stx (.dir a)]

/-- Row E of the opcode map of 30_encoding R109: opcodes 0xE0 to 0xEF. -/
def opRowE : List OpForm :=
  [.byte fun o => .subb (.idx o), .byte fun o => .cmpb (.idx o),
   .byte fun o => .sbcb (.idx o), .none, .byte fun o => .andb (.idx o),
   .byte fun o => .bitb (.idx o), .byte fun o => .ldab (.idx o),
   .byte fun o => .stab (.idx o), .byte fun o => .eorb (.idx o),
   .byte fun o => .adcb (.idx o), .byte fun o => .orab (.idx o),
   .byte fun o => .addb (.idx o), .byte fun v => .adx (.imm v), .none,
   .byte fun o => .ldx (.idx o), .byte fun o => .stx (.idx o)]

/-- Row F of the opcode map of 30_encoding R109: opcodes 0xF0 to 0xFF. -/
def opRowF : List OpForm :=
  [.word fun a => .subb (.ext a), .word fun a => .cmpb (.ext a),
   .word fun a => .sbcb (.ext a), .none, .word fun a => .andb (.ext a),
   .word fun a => .bitb (.ext a), .word fun a => .ldab (.ext a),
   .word fun a => .stab (.ext a), .word fun a => .eorb (.ext a),
   .word fun a => .adcb (.ext a), .word fun a => .orab (.ext a),
   .word fun a => .addb (.ext a), .word fun a => .adx (.ext a), .none,
   .word fun a => .ldx (.ext a), .word fun a => .stx (.ext a)]

/-- The opcode map of 30_encoding R109, row by row (high nibble), cell by cell (low nibble). -/
def opRows : List (List OpForm) :=
  [opRow0, opRow1, opRow2, opRow3, opRow4, opRow5, opRow6, opRow7,
   opRow8, opRow9, opRowA, opRowB, opRowC, opRowD, opRowE, opRowF]

/-- The form of an opcode byte. -/
def opForm (memImm : Bool) (op : Byte) : OpForm :=
  if !memImm && memImmOpcodes.contains op then .none
  else (opRows.getD (op.toNat / 16) []).getD (op.toNat % 16) .none

/-- "The length of an instruction is a function of its first byte alone" (30_encoding R112). -/
def lengthOf (memImm : Bool) (op : Byte) : Nat :=
  match opForm memImm op with
  | .none => 1
  | .inh _ => 1
  | .byte _ => 2
  | .word _ => 3
  | .imx _ => 3

/-- The instruction of an opcode byte and the two bytes after it, of which it uses `lengthOf - 1`
(30_encoding R103 to R107, R115: operands high byte first). Total: no opcode is illegal (R111). -/
def instrOf (memImm : Bool) (op b1 b2 : Byte) : Instr :=
  match opForm memImm op with
  | .none => .unrecognised op
  | .inh i => i
  | .byte f => f b1
  | .word f => f (joinBytes b1 b2)
  | .imx f => f b1 b2

/-- Why a byte list does not begin with an instruction. Only a list that is too short fails: "all 256
values of every operand byte are legal" (30_encoding R111). -/
inductive DecodeError where
  /-- There is no opcode byte. -/
  | noOpcode
  /-- The list ends before the operand bytes that the opcode `op` calls for. -/
  | missingOperand (op : Byte)
  deriving DecidableEq, Repr

/-- The first instruction of a byte list and the rest of the list. -/
def decode (memImm : Bool) : List Byte → Except DecodeError (Instr × List Byte)
  | [] => .error .noOpcode
  | op :: rest =>
    match opForm memImm op, rest with
    | .none, r => .ok (.unrecognised op, r)
    | .inh i, r => .ok (i, r)
    | .byte f, b1 :: r => .ok (f b1, r)
    | .word f, b1 :: b2 :: r => .ok (f (joinBytes b1 b2), r)
    | .imx f, b1 :: b2 :: r => .ok (f b1 b2, r)
    | _, _ => .error (.missingOperand op)

/-- The opcode byte of each form, in the order in which the instruction rules list them. -/
def Operand8.opcode (imm dir idx ext : Byte) : Operand8 → Byte
  | .imm _ => imm
  | .dir _ => dir
  | .idx _ => idx
  | .ext _ => ext

def Operand16.opcode (imm dir idx ext : Byte) : Operand16 → Byte
  | .imm _ => imm
  | .dir _ => dir
  | .idx _ => idx
  | .ext _ => ext

def StoreAddr.opcode (dir idx ext : Byte) : StoreAddr → Byte
  | .dir _ => dir
  | .idx _ => idx
  | .ext _ => ext

def MemAddr.opcode (idx ext : Byte) : MemAddr → Byte
  | .idx _ => idx
  | .ext _ => ext

def AdxOperand.opcode (imm ext : Byte) : AdxOperand → Byte
  | .imm _ => imm
  | .ext _ => ext

/-- A 16-bit operand in the instruction stream, high byte first (30_encoding R101, 20_memory R84). -/
def wordBytes (w : Word) : List Byte := [hiByte w, loByte w]

/-- The operand bytes of each form (30_encoding R101). -/
def Operand8.bytes : Operand8 → List Byte
  | .imm v => [v]
  | .dir a => [a]
  | .idx off => [off]
  | .ext a => wordBytes a

def Operand16.bytes : Operand16 → List Byte
  | .imm v => wordBytes v
  | .dir a => [a]
  | .idx off => [off]
  | .ext a => wordBytes a

def StoreAddr.bytes : StoreAddr → List Byte
  | .dir a => [a]
  | .idx off => [off]
  | .ext a => wordBytes a

def MemAddr.bytes : MemAddr → List Byte
  | .idx off => [off]
  | .ext a => wordBytes a

def AdxOperand.bytes : AdxOperand → List Byte
  | .imm v => [v]
  | .ext a => wordBytes a

/-- The opcode byte of an instruction, from the "Encoding" part of its rule in files 40 to 44. -/
def Instr.opcode : Instr → Byte
  -- Loads, stores, transfers, stack (40_load_store_transfer R121 to R134).
  | .ldaa m => m.opcode 0x86 0x96 0xA6 0xB6
  | .ldab m => m.opcode 0xC6 0xD6 0xE6 0xF6
  | .staa m => m.opcode 0x97 0xA7 0xB7
  | .stab m => m.opcode 0xD7 0xE7 0xF7
  | .ldx m => m.opcode 0xCE 0xDE 0xEE 0xFE
  | .lds m => m.opcode 0x8E 0x9E 0xAE 0xBE
  | .stx m => m.opcode 0xDF 0xEF 0xFF
  | .sts m => m.opcode 0x9F 0xAF 0xBF
  | .tab => 0x16
  | .tba => 0x17
  | .tap => 0x06
  | .tpa => 0x07
  | .tsx => 0x30
  | .txs => 0x35
  | .psha => 0x36
  | .pshb => 0x37
  | .pula => 0x32
  | .pulb => 0x33
  -- Arithmetic (41_arithmetic R151 to R169, R178).
  | .adda m => m.opcode 0x8B 0x9B 0xAB 0xBB
  | .addb m => m.opcode 0xCB 0xDB 0xEB 0xFB
  | .adca m => m.opcode 0x89 0x99 0xA9 0xB9
  | .adcb m => m.opcode 0xC9 0xD9 0xE9 0xF9
  | .aba => 0x1B
  | .suba m => m.opcode 0x80 0x90 0xA0 0xB0
  | .subb m => m.opcode 0xC0 0xD0 0xE0 0xF0
  | .sbca m => m.opcode 0x82 0x92 0xA2 0xB2
  | .sbcb m => m.opcode 0xC2 0xD2 0xE2 0xF2
  | .sba => 0x10
  | .cmpa m => m.opcode 0x81 0x91 0xA1 0xB1
  | .cmpb m => m.opcode 0xC1 0xD1 0xE1 0xF1
  | .cba => 0x11
  | .nega => 0x40
  | .negb => 0x50
  | .neg m => m.opcode 0x60 0x70
  | .inca => 0x4C
  | .incb => 0x5C
  | .inc m => m.opcode 0x6C 0x7C
  | .deca => 0x4A
  | .decb => 0x5A
  | .dec m => m.opcode 0x6A 0x7A
  | .clra => 0x4F
  | .clrb => 0x5F
  | .clr m => m.opcode 0x6F 0x7F
  | .tsta => 0x4D
  | .tstb => 0x5D
  | .tst m => m.opcode 0x6D 0x7D
  | .daa => 0x19
  | .inx => 0x08
  | .dex => 0x09
  | .ins => 0x31
  | .des => 0x34
  | .cpx m => m.opcode 0x8C 0x9C 0xAC 0xBC
  | .adx m => m.opcode 0xEC 0xFC
  -- Logic, shifts, memory-immediate (42_logic_shift R190 to R204).
  | .anda m => m.opcode 0x84 0x94 0xA4 0xB4
  | .andb m => m.opcode 0xC4 0xD4 0xE4 0xF4
  | .bita m => m.opcode 0x85 0x95 0xA5 0xB5
  | .bitb m => m.opcode 0xC5 0xD5 0xE5 0xF5
  | .oraa m => m.opcode 0x8A 0x9A 0xAA 0xBA
  | .orab m => m.opcode 0xCA 0xDA 0xEA 0xFA
  | .eora m => m.opcode 0x88 0x98 0xA8 0xB8
  | .eorb m => m.opcode 0xC8 0xD8 0xE8 0xF8
  | .coma => 0x43
  | .comb => 0x53
  | .com m => m.opcode 0x63 0x73
  | .asla => 0x48
  | .aslb => 0x58
  | .asl m => m.opcode 0x68 0x78
  | .asra => 0x47
  | .asrb => 0x57
  | .asr m => m.opcode 0x67 0x77
  | .lsra => 0x44
  | .lsrb => 0x54
  | .lsr m => m.opcode 0x64 0x74
  | .rola => 0x49
  | .rolb => 0x59
  | .rol m => m.opcode 0x69 0x79
  | .rora => 0x46
  | .rorb => 0x56
  | .ror m => m.opcode 0x66 0x76
  | .nim _ _ => 0x71
  | .oim _ _ => 0x72
  | .xim _ _ => 0x75
  | .tmm _ _ => 0x7B
  -- Branches, jumps, calls (43_branch_jump R222 to R240).
  | .bra _ => 0x20
  | .bhi _ => 0x22
  | .bls _ => 0x23
  | .bcc _ => 0x24
  | .bcs _ => 0x25
  | .bne _ => 0x26
  | .beq _ => 0x27
  | .bvc _ => 0x28
  | .bvs _ => 0x29
  | .bpl _ => 0x2A
  | .bmi _ => 0x2B
  | .bge _ => 0x2C
  | .blt _ => 0x2D
  | .bgt _ => 0x2E
  | .ble _ => 0x2F
  | .jmp m => m.opcode 0x6E 0x7E
  | .jsr m => m.opcode 0xAD 0xBD
  | .bsr _ => 0x8D
  | .rts => 0x39
  -- System and unrecognised opcodes (44_system R250 to R262).
  | .nop => 0x01
  | .clc => 0x0C
  | .sec => 0x0D
  | .clv => 0x0A
  | .sev => 0x0B
  | .cli => 0x0E
  | .sei => 0x0F
  | .swi => 0x3F
  | .rti => 0x3B
  | .wai => 0x3E
  | .unrecognised op => op

/-- The operand bytes of an instruction. -/
def Instr.operandBytes : Instr → List Byte
  | .ldaa m => m.bytes
  | .ldab m => m.bytes
  | .staa m => m.bytes
  | .stab m => m.bytes
  | .ldx m => m.bytes
  | .lds m => m.bytes
  | .stx m => m.bytes
  | .sts m => m.bytes
  | .adda m => m.bytes
  | .addb m => m.bytes
  | .adca m => m.bytes
  | .adcb m => m.bytes
  | .suba m => m.bytes
  | .subb m => m.bytes
  | .sbca m => m.bytes
  | .sbcb m => m.bytes
  | .cmpa m => m.bytes
  | .cmpb m => m.bytes
  | .neg m => m.bytes
  | .inc m => m.bytes
  | .dec m => m.bytes
  | .clr m => m.bytes
  | .tst m => m.bytes
  | .cpx m => m.bytes
  | .adx m => m.bytes
  | .anda m => m.bytes
  | .andb m => m.bytes
  | .bita m => m.bytes
  | .bitb m => m.bytes
  | .oraa m => m.bytes
  | .orab m => m.bytes
  | .eora m => m.bytes
  | .eorb m => m.bytes
  | .com m => m.bytes
  | .asl m => m.bytes
  | .asr m => m.bytes
  | .lsr m => m.bytes
  | .rol m => m.bytes
  | .ror m => m.bytes
  | .jmp m => m.bytes
  | .jsr m => m.bytes
  | .bra rel => [rel]
  | .bhi rel => [rel]
  | .bls rel => [rel]
  | .bcc rel => [rel]
  | .bcs rel => [rel]
  | .bne rel => [rel]
  | .beq rel => [rel]
  | .bvc rel => [rel]
  | .bvs rel => [rel]
  | .bpl rel => [rel]
  | .bmi rel => [rel]
  | .bge rel => [rel]
  | .blt rel => [rel]
  | .bgt rel => [rel]
  | .ble rel => [rel]
  | .bsr rel => [rel]
  | .nim imm off => [imm, off]
  | .oim imm off => [imm, off]
  | .xim imm off => [imm, off]
  | .tmm imm off => [imm, off]
  | .tab | .tba | .tap | .tpa | .tsx | .txs | .psha | .pshb | .pula | .pulb | .aba | .sba
  | .cba | .nega | .negb | .inca | .incb | .deca | .decb | .clra | .clrb | .tsta | .tstb
  | .daa | .inx | .dex | .ins | .des | .coma | .comb | .asla | .aslb | .asra | .asrb | .lsra
  | .lsrb | .rola | .rolb | .rora | .rorb | .rts | .nop | .clc | .sec | .clv | .sev | .cli
  | .sei | .swi | .rti | .wai
  | .unrecognised _ => []

/-- The bytes of an instruction, opcode first (30_encoding R100). -/
def encode (i : Instr) : List Byte := i.opcode :: i.operandBytes

/-- The bytes of an instruction whose bits are `w`, numbered from bit 0 of its first byte, with every
bit above `nbits` zero and up to the longest instruction. -/
def tableBytes (nbits w : Nat) : List Byte :=
  let v := w % 2 ^ nbits
  [BitVec.ofNat 8 v, BitVec.ofNat 8 (v / 256), BitVec.ofNat 8 (v / 65536)]

/-- What the decoder reads from a row of the opcode table, with all 203 instructions present. -/
def decodeTableWord (nbits w : Nat) : Option Instr :=
  match decode true (tableBytes nbits w) with
  | .ok (i, _) => some i
  | .error _ => Option.none

end Sys2Proof
end

