-- ==== Sys2Proof/Config.lean ====
section
/-! DEFINITION. The named parameters of the model (00_scope R5) as plain data. A parameter that is a
function of finitely many inputs (`CYCLES`, `DAA_V`, the memory-immediate flag functions) is held as a
finite list of exceptions to its default rule, so every such function can be written and `State`
stays plain data. The default values are in Machine/Params.lean. -/

namespace Sys2Proof

/-- The closed device-kind set of 10_state R31. -/
inductive DeviceKind where
  | ram | rom | via | stub
  deriving DecidableEq, Repr

/-- A device's contiguous region, inclusive at both ends (20_memory R79). -/
structure Region where
  first : Nat
  last : Nat
  kind : DeviceKind
  deriving DecidableEq, Repr

/-- The map from address to device (10_state R30): registered regions, the latest first. -/
abbrev AddressMap := List Region

/-- Which rule gives N and V after CPX (41_arithmetic R169, parameter `CPX_NV`). -/
inductive CpxRule where
  | sixteenBit | highByte
  deriving DecidableEq, Repr

/-- The three flags the memory-immediate instructions write (42_logic_shift R201 to R204). -/
structure NZV where
  n : Bool
  z : Bool
  v : Bool
  deriving DecidableEq, Repr

/-- The parameters of 00_scope R5 and 93_implementation_defined U9. DESIGN CHOICE (log 1): they are a
field of `State` that no step changes, so a statement over all states is one over all values. -/
structure Config where
  /-- `MAP` (20_memory R82). -/
  map : AddressMap
  /-- `DIAG_ADDR` (20_memory R77). -/
  diagAddr : Word
  /-- `VEC_IRQ` (60_exceptions R405). -/
  vecIrq : Word
  /-- `VEC_SWI` (60_exceptions R405). -/
  vecSwi : Word
  /-- `VEC_NMI` (60_exceptions R405). -/
  vecNmi : Word
  /-- `VEC_RESET` (60_exceptions R405). -/
  vecReset : Word
  /-- `INT_ENTRY_CYCLES` (60_exceptions R404). -/
  intEntryCycles : Nat
  /-- Opcodes whose cost differs from the table of 30_encoding R109. -/
  cycleOverrides : List (Byte × Nat)
  /-- The inputs (A, H, C) at which `DAA_V` is 1 (41_arithmetic R164). -/
  daaVOnes : List (Byte × Bool × Bool)
  /-- `CPX_NV` (41_arithmetic R169). -/
  cpxNV : CpxRule
  /-- `IER_READ_BIT7` (46_via_registers R329). -/
  ierReadBit7 : Bool
  /-- Whether NIM, OIM, XIM and TMM exist (93_implementation_defined U9, switch (a)). -/
  memImm : Bool
  /-- Results at which the flags of NIM, OIM, XIM differ from R201 (U9, (b)). -/
  memImmFlagOverrides : List (Byte × NZV)
  /-- Pairs (memory byte, mask) at which the flags of TMM differ from R204 (U9, (b)). -/
  tmmFlagOverrides : List ((Byte × Byte) × NZV)
  deriving DecidableEq, Repr

end Sys2Proof
end

