-- ==== Sys2Proof/Machine/Params.lean ====
section
/-! DEFINITION. The default values of the parameters (00_scope R5) and the parameters that are
functions. -/

namespace Sys2Proof.Machine

/-- The cost table of 30_encoding R108 and R109, opcode 0x00 first, sixteen to a row; 1 at an
unrecognised opcode (R110). -/
def defaultCycles : List Nat :=
  ([1, 2, 1, 1, 1, 1, 2, 2, 4, 4, 2, 2, 2, 2, 2, 2] ++
   [2, 2, 1, 1, 1, 1, 2, 2, 1, 2, 1, 2, 1, 1, 1, 1] ++
   [4, 1, 4, 4, 4, 4, 4, 4, 4, 4, 4, 4, 4, 4, 4, 4] ++
   [4, 4, 4, 4, 4, 4, 4, 4, 1, 5, 1, 10, 1, 1, 9, 12] ++
   [2, 1, 1, 2, 2, 1, 2, 2, 2, 2, 2, 1, 2, 2, 1, 2] ++
   [2, 1, 1, 2, 2, 1, 2, 2, 2, 2, 2, 1, 2, 2, 1, 2] ++
   [7, 1, 1, 7, 7, 1, 7, 7, 7, 7, 7, 1, 7, 7, 4, 7] ++
   [6, 8, 8, 6, 6, 8, 6, 6, 6, 6, 6, 7, 6, 6, 3, 6] ++
   [2, 2, 2, 1, 2, 2, 2, 1, 2, 2, 2, 2, 3, 8, 3, 1] ++
   [3, 3, 3, 1, 3, 3, 3, 4, 3, 3, 3, 3, 4, 1, 4, 5] ++
   [5, 5, 5, 1, 5, 5, 5, 6, 5, 5, 5, 5, 6, 8, 6, 7] ++
   [4, 4, 4, 1, 4, 4, 4, 5, 4, 4, 4, 4, 5, 9, 5, 6] ++
   [2, 2, 2, 1, 2, 2, 2, 1, 2, 2, 2, 2, 1, 1, 3, 1] ++
   [3, 3, 3, 1, 3, 3, 3, 4, 3, 3, 3, 3, 1, 1, 4, 5] ++
   [5, 5, 5, 1, 5, 5, 5, 6, 5, 5, 5, 5, 3, 1, 6, 7] ++
   [4, 4, 4, 1, 4, 4, 4, 5, 4, 4, 4, 4, 7, 1, 5, 6])

/-- The region of the PeripheralController of the default map (46_via_registers R300). -/
def viaRegion : Region := ⟨0xC800, 0xC80F, .via⟩

/-- The default `MAP`, the JR-100 layout of 20_memory R82, the latest registration first. -/
def defaultMap : AddressMap :=
  [⟨0xE000, 0xFFFF, .rom⟩, viaRegion, ⟨0xC100, 0xC3FF, .ram⟩, ⟨0xC000, 0xC0FF, .ram⟩,
   ⟨0x0000, 0x3FFF, .ram⟩]

/-- The layout with the extended-RAM option on (20_memory R82). -/
def extendedMap : AddressMap :=
  [⟨0xE000, 0xFFFF, .rom⟩, viaRegion, ⟨0xC100, 0xC3FF, .ram⟩, ⟨0xC000, 0xC0FF, .ram⟩,
   ⟨0x0000, 0x7FFF, .ram⟩]

/-- Every parameter at its default (00_scope R5). -/
def defaultConfig : Config where
  map := defaultMap
  diagAddr := 0xD000
  vecIrq := 0xFFF8
  vecSwi := 0xFFFA
  vecNmi := 0xFFFC
  vecReset := 0xFFFE
  intEntryCycles := 12
  cycleOverrides := []
  daaVOnes := []
  cpxNV := .sixteenBit
  ierReadBit7 := true
  memImm := true
  memImmFlagOverrides := []
  tmmFlagOverrides := []

/-- `CYCLES[opcode]` (30_encoding R108). -/
def cyclesOf (cfg : Config) (op : Byte) : Nat :=
  (cfg.cycleOverrides.lookup op).getD (defaultCycles.getD op.toNat 1)

/-- `DAA_V(A, H, C)` on the values before the instruction (41_arithmetic R164). -/
def daaV (cfg : Config) (a : Byte) (h c : Bool) : Bool := cfg.daaVOnes.contains (a, h, c)

/-- N, Z, V of NIM, OIM, XIM from the result (42_logic_shift R201, 93_implementation_defined U9). -/
def memImmFlags (cfg : Config) (r : Byte) : NZV :=
  (cfg.memImmFlagOverrides.lookup r).getD ⟨r != 0, r == 0, false⟩

/-- The default N, Z, V of TMM: exactly one is set (42_logic_shift R204). -/
def tmmDefaultFlags (m imm : Byte) : NZV :=
  let r := m &&& imm
  if imm == 0 || r == 0 then ⟨false, true, false⟩
  else if r == imm then ⟨false, false, true⟩
  else ⟨true, false, false⟩

/-- N, Z, V of TMM from the memory byte and the mask (R204, U9). -/
def tmmFlags (cfg : Config) (m imm : Byte) : NZV :=
  (cfg.tmmFlagOverrides.lookup (m, imm)).getD (tmmDefaultFlags m imm)

end Sys2Proof.Machine
end

