-- ==== Sys2Proof/Machine/AddressMap.lean ====
section
/-! DEFINITION. The map from address to device: construction (20_memory R78, R79) and look-up (R80). -/

namespace Sys2Proof.Machine

/-- The set-up errors of 60_exceptions R412, "never during steady-state execution". -/
inductive ConfigurationError where
  /-- A capacity other than 65536 (R78, D18). -/
  | badCapacity
  /-- `start > end`, or an end above 0xFFFF (R79). -/
  | malformedRegion
  deriving DecidableEq, Repr

/-- `allocate(capacity)`: every address is owned by the stub. This hardware takes 65536 only (R78). -/
def allocateMap (capacity : Nat) : Except ConfigurationError AddressMap :=
  if capacity = 65536 then .ok [] else .error .badCapacity

/-- `register(device)`: "later calls override earlier ones on overlap" (R79). -/
def registerDevice (r : Region) (m : AddressMap) : Except ConfigurationError AddressMap :=
  if r.first ≤ r.last ∧ r.last ≤ 0xFFFF then .ok (r :: m) else .error .malformedRegion

/-- Registers the devices of a list, the first one first. -/
def registerAll : List Region → AddressMap → Except ConfigurationError AddressMap
  | [], m => .ok m
  | r :: rs, m =>
    match registerDevice r m with
    | .ok m' => registerAll rs m'
    | .error e => .error e

/-- Whether an address lies in a region. -/
def regionHolds (r : Region) (a : Nat) : Bool := decide (r.first ≤ a) && decide (a ≤ r.last)

/-- `owner(a)`: the device of the latest registration whose region contains a, or the stub when no
region contains a (R80). -/
def ownerIn : AddressMap → Nat → DeviceKind
  | [], _ => .stub
  | r :: rest, a => if regionHolds r a then r.kind else ownerIn rest a

end Sys2Proof.Machine
end

