-- ==== Sys2Proof/Machine/Memory.lean ====
section
/-! DEFINITION. The bytes of the memory devices (10_state R31) as one list of (address, byte) in a
canonical form: addresses strictly rising and below 65536, no entry equal to what an unlisted address
reads as. -/

namespace Sys2Proof.Machine

/-- The bytes of RAM and ROM, by address. -/
abbrev Memory := List Host.Cell

/-- What an unlisted address reads as. DESIGN CHOICE, unsafe (log 5): RAM at power-on is "unspecified"
and the ROM image is a parameter (10_state R31). -/
def unlistedByte : Byte := 0

/-- The byte of an address. -/
def readByte : Memory → Nat → Byte
  | [], _ => unlistedByte
  | (k, v) :: rest, a => if k = a then v else readByte rest a

/-- A cell in front of a memory, left out when it holds what an unlisted address reads as. -/
def consCell (a : Nat) (v : Byte) (m : Memory) : Memory :=
  if v = unlistedByte then m else (a, v) :: m

/-- Replaces the byte of an address, keeping the canonical form. -/
def writeByte : Memory → Nat → Byte → Memory
  | [], a, v => consCell a v []
  | (k, w) :: rest, a, v =>
    if a < k then consCell a v ((k, w) :: rest)
    else if a = k then consCell a v rest
    else (k, w) :: writeByte rest a v

/-- The canonical form of a memory whose addresses are all at or above `lo`. -/
def memoryWfFrom (lo : Nat) : Memory → Bool
  | [] => true
  | (k, v) :: rest =>
    decide (lo ≤ k) && decide (k < 65536) && (v != unlistedByte) && memoryWfFrom (k + 1) rest

/-- The canonical form (addresses strictly rising, inside the address space, no default entry). -/
def Memory.wf (m : Memory) : Bool := memoryWfFrom 0 m

end Sys2Proof.Machine
end

