-- ==== Sys2Proof/Machine/State.lean ====
section
/-! DEFINITION. The state of the machine (70_reset_and_hazards R453: CPU record, `via` record, device
bytes, environment pins), with the parameters of the model, and the state after reset. -/

namespace Sys2Proof.Machine

/-- The CPU registers and flags (10_state R20 to R24). -/
structure Cpu where
  a : Byte
  b : Byte
  ix : Word
  sp : Word
  pc : Word
  h : Bool
  i : Bool
  n : Bool
  z : Bool
  v : Bool
  c : Bool
  deriving DecidableEq, Repr

/-- The latched request flags (10_state R26). -/
structure Requests where
  resetPending : Bool
  nmiPending : Bool
  irqPending : Bool
  haltActive : Bool
  waitActive : Bool
  deriving DecidableEq, Repr

/-- The two phases of a shift-register bit transfer (10_state R38). -/
inductive SrPhase where
  | notify | shift
  deriving DecidableEq, Repr

/-- The PeripheralController (10_state R32 to R44). -/
structure Via where
  /-- External levels on the port pins and the control-line inputs (R33). -/
  paIn : Byte
  pbIn : Byte
  ca1In : Bool
  ca2In : Bool
  cb1In : Bool
  cb2In : Bool
  /-- Port registers (R34). -/
  ora : Byte
  orb : Byte
  ira : Byte
  irb : Byte
  ddra : Byte
  ddrb : Byte
  /-- Timer 1 (R36). -/
  t1c : Word
  t1l : Word
  t1Armed : Bool
  t1JustLoaded : Bool
  t1Pb7 : Bool
  /-- Timer 2 (R37). -/
  t2c : Word
  t2l : Word
  t2Armed : Bool
  t2JustLoaded : Bool
  pb6Prev : Bool
  /-- Shift register (R38). -/
  sr : Byte
  srCount : Nat
  srPhase : SrPhase
  srActive : Bool
  /-- Control registers (R39, R40). -/
  acr : Byte
  pcr : Byte
  /-- The seven source bits and the seven enables (R41, R42). -/
  ifr : BitVec 7
  ier : BitVec 7
  /-- Control-line outputs and pulse flags (R43). -/
  ca2Out : Bool
  cb1Out : Bool
  cb2Out : Bool
  ca2Pulse : Bool
  cb2Pulse : Bool
  /-- The composite bit as last reported (R44). -/
  irqLine : Bool
  deriving DecidableEq, Repr

/-- The whole machine. -/
structure State where
  cpu : Cpu
  req : Requests
  /-- Clock cycles consumed by completed CPU steps (10_state R27). -/
  clock : Nat
  via : Via
  /-- The bytes of RAM and ROM (10_state R31). -/
  mem : Memory
  /-- The parameters (00_scope R5); no step changes them (10_state R30: "configuration, not run-time
  state"). -/
  cfg : Config
  deriving DecidableEq, Repr

/-- Why the machine stops. -/
inductive Fault where
  /-- `InvariantViolation(what)` (60_exceptions R411), the one fault of the spec. Its only named cause is
  an undefined shift-register mode, which an 8-bit ACR cannot hold (10_state R46, 47_via_tick R357), so
  no path of this model raises it. Safe (log 9). -/
  | invariantViolation (what : String)
  deriving DecidableEq, Repr

/-- Why the model gives no meaning. -/
inductive Refusal where
  /-- Raised by an arm of `exec` whose instruction has no meaning yet; no arm does. Safe. -/
  | notModelled (mnemonic : String)
  deriving DecidableEq, Repr

/-- The PeripheralController after `via.reset()` at power-on (10_state R45). The timers' counters and
latches and SR, which R45 leaves unspecified, are 0 (DESIGN CHOICE, unsafe, log 3), and so are the
environment's pin inputs (DESIGN CHOICE, unsafe, log 4). -/
def resetVia : Via where
  paIn := 0
  pbIn := 0
  ca1In := false
  ca2In := false
  cb1In := false
  cb2In := false
  ora := 0
  orb := 0
  ira := 0
  irb := 0
  ddra := 0
  ddrb := 0
  t1c := 0
  t1l := 0
  t1Armed := false
  t1JustLoaded := false
  t1Pb7 := true
  t2c := 0
  t2l := 0
  t2Armed := false
  t2JustLoaded := false
  pb6Prev := false
  sr := 0
  srCount := 0
  srPhase := .notify
  srActive := false
  acr := 0
  pcr := 0
  ifr := 0
  ier := 0
  ca2Out := true
  cb1Out := true
  cb2Out := true
  ca2Pulse := false
  cb2Pulse := false
  irqLine := false

/-- The machine "after the Reset event and the first CPU step that follows it"
(70_reset_and_hazards R451): clock 0, I set, every latch 0, the VIA in its reset state, `pc` the word at
`VEC_RESET`, which is 0x0000 while the ROM image is empty (log 6). A, B, IX, SP, H, N, Z, V, C are 0
(DESIGN CHOICE, unsafe, log 2); no byte of memory is listed (log 5); the parameters are the defaults. -/
def State.reset : State where
  cpu :=
    { a := 0, b := 0, ix := 0, sp := 0, pc := 0,
      h := false, i := true, n := false, z := false, v := false, c := false }
  req :=
    { resetPending := false, nmiPending := false, irqPending := false,
      haltActive := false, waitActive := false }
  clock := 0
  via := resetVia
  mem := []
  cfg := defaultConfig

end Sys2Proof.Machine
end

