-- ==== Sys2Proof/Machine/Via.lean ====
section
/-! DEFINITION. The PeripheralController: ports and pins, control-register fields, interrupt flags and
line, and the sixteen register accesses (46_via_registers). Its tick is in Machine/ViaTick.lean, the
environment's pin events in Machine/Environment.lean. -/

namespace Sys2Proof.Machine

-- Fields of the control registers.

/-- The eight values of a `C?2_MODE` field of the PCR (10_state R40). -/
inductive C2Mode where
  | inputFalling | independentFalling | inputRising | independentRising
  | handshake | pulse | manualLow | manualHigh
  deriving DecidableEq, Repr

/-- A `C?2_MODE` field (10_state R40). -/
def c2ModeOfBits (b : BitVec 3) : C2Mode :=
  match b.toNat with
  | 0 => .inputFalling
  | 1 => .independentFalling
  | 2 => .inputRising
  | 3 => .independentRising
  | 4 => .handshake
  | 5 => .pulse
  | 6 => .manualLow
  | _ => .manualHigh

/-- `CA2_MODE`, bits 3:1 of a PCR value. -/
def ca2Mode (pcr : Byte) : C2Mode := c2ModeOfBits (pcr.extractLsb' 1 3)

/-- `CB2_MODE`, bits 7:5 of a PCR value. -/
def cb2Mode (pcr : Byte) : C2Mode := c2ModeOfBits (pcr.extractLsb' 5 3)

/-- The independent-interrupt input modes, 0b001 and 0b011 (R335). -/
def c2Independent : C2Mode → Bool
  | .independentFalling | .independentRising => true
  | .inputFalling | .inputRising | .handshake | .pulse | .manualLow | .manualHigh => false

/-- `SR_MODE`, bits 4:2 of an ACR value (10_state R39). -/
def srModeBits (acr : Byte) : BitVec 3 := acr.extractLsb' 2 3

/-- `PA_LATCH`, `PB_LATCH`, `T2_PULSE`, `T1_CONT`, `T1_PB7EN` (10_state R39). -/
def paLatch (acr : Byte) : Bool := acr.getLsbD 0
def pbLatch (acr : Byte) : Bool := acr.getLsbD 1
def t2Pulse (acr : Byte) : Bool := acr.getLsbD 5
def t1Cont (acr : Byte) : Bool := acr.getLsbD 6
def t1Pb7En (acr : Byte) : Bool := acr.getLsbD 7

-- Ports and pins.

/-- `PA_out` (10_state R33). -/
def Via.paOut (v : Via) : Byte := v.ora &&& v.ddra

/-- `outputB`: DDRB, with bit 7 an output also when `ACR[7] = 1` (10_state R35). -/
def Via.outputB (v : Via) : Byte := if t1Pb7En v.acr then v.ddrb ||| 0x80 else v.ddrb

/-- `PB_out`: `ORB & DDRB`, with bit 7 replaced by `T1_PB7` when `ACR[7] = 1` (10_state R35). -/
def Via.pbOut (v : Via) : Byte :=
  let out := v.orb &&& v.ddrb
  if t1Pb7En v.acr then (out &&& 0x7F) ||| (if v.t1Pb7 then 0x80 else 0x00) else out

/-- `PBpin`: the level of each port B pin as the chip sees it (10_state R35). -/
def Via.pbPin (v : Via) : Byte := muxBits v.outputB v.pbOut v.pbIn

/-- What a read of port B returns: driven bits, and latched or live input bits (R303). -/
def Via.readPortB (v : Via) : Byte :=
  muxBits v.outputB v.pbOut (if pbLatch v.acr then v.irb else v.pbIn)

/-- What a read of port A returns (R305). -/
def Via.readPortA (v : Via) : Byte :=
  muxBits v.ddra v.ora (if paLatch v.acr then v.ira else v.paIn)

-- Interrupt flags and the interrupt line.

/-- The seven interrupt sources (10_state R41). -/
inductive IrqSource where
  | ca2 | ca1 | sr | cb2 | cb1 | t2 | t1
  deriving DecidableEq, Repr

/-- A source's bit in IFR and IER (10_state R41). -/
def sourceMask : IrqSource → BitVec 7
  | .ca2 => 0b0000001
  | .ca1 => 0b0000010
  | .sr => 0b0000100
  | .cb2 => 0b0001000
  | .cb1 => 0b0010000
  | .t2 => 0b0100000
  | .t1 => 0b1000000

/-- The composite bit: 1 iff `(IFR & IER & 0x7F) != 0` (10_state R41). -/
def Via.composite (v : Via) : Bool := (v.ifr &&& v.ier) != 0

/-- Applies a function to the VIA record. -/
def mapVia (f : Via → Via) (s : State) : State := { s with via := f s.via }

/-- The CPU's `irq()` and its deassert, `irqPending <- level`: "in this hardware done only by rule R330"
(60_exceptions R428), so `updateIrq` is its one caller and the environment has no such call (log 14). -/
def cpuIrq (level : Bool) (s : State) : State := { s with req := { s.req with irqPending := level } }

/-- `updateIrq()`: recomputes the line, and on a transition hands it to the CPU through `irq()` (R330,
10_state R44). -/
def updateIrq (s : State) : State :=
  let c := s.via.composite
  if c != s.via.irqLine then cpuIrq c (mapVia (fun v => { v with irqLine := c }) s) else s

/-- `setFlag(b)` (R330). -/
def setFlag (src : IrqSource) (s : State) : State :=
  updateIrq (mapVia (fun v => { v with ifr := v.ifr ||| sourceMask src }) s)

/-- `clearFlags(m)` (R330). -/
def clearFlags (m : BitVec 7) (s : State) : State :=
  updateIrq (mapVia (fun v => { v with ifr := v.ifr &&& ~~~m }) s)

-- Handshake helpers (R335).

/-- `portAFlags()`: clears CA1, and CA2 unless it is an independent-interrupt input. -/
def portAFlags (s : State) : State :=
  clearFlags (sourceMask .ca1 |||
    (if c2Independent (ca2Mode s.via.pcr) then 0 else sourceMask .ca2)) s

/-- `portBFlags()`: clears CB1, and CB2 unless it is an independent-interrupt input. -/
def portBFlags (s : State) : State :=
  clearFlags (sourceMask .cb1 |||
    (if c2Independent (cb2Mode s.via.pcr) then 0 else sourceMask .cb2)) s

/-- `handshakeA()`: CA2 goes low in handshake mode, and low until the next tick in pulse mode. -/
def handshakeA (v : Via) : Via :=
  match ca2Mode v.pcr with
  | .handshake => { v with ca2Out := false }
  | .pulse => { v with ca2Out := false, ca2Pulse := true }
  | .inputFalling | .independentFalling | .inputRising | .independentRising
  | .manualLow | .manualHigh => v

/-- `handshakeB()`: the same for CB2. -/
def handshakeB (v : Via) : Via :=
  match cb2Mode v.pcr with
  | .handshake => { v with cb2Out := false }
  | .pulse => { v with cb2Out := false, cb2Pulse := true }
  | .inputFalling | .independentFalling | .inputRising | .independentRising
  | .manualLow | .manualHigh => v

/-- `srArm()` (47_via_tick R354). -/
def srArm (v : Via) : Via :=
  { v with srCount := 0, srPhase := .notify, srActive := srModeBits v.acr != 0 }

-- The sixteen registers (R301).

/-- The register table of R301. -/
inductive ViaReg where
  | orb | ora | ddrb | ddra | t1cl | t1ch | t1ll | t1lh
  | t2cl | t2ch | sr | acr | pcr | ifr | ier | oraNoHandshake
  deriving DecidableEq, Repr

/-- "low 4 bits of offset select the register; high offset bits ignored" (R300). -/
def viaRegOf (a : Word) : ViaReg :=
  match a.toNat % 16 with
  | 0 => .orb
  | 1 => .ora
  | 2 => .ddrb
  | 3 => .ddra
  | 4 => .t1cl
  | 5 => .t1ch
  | 6 => .t1ll
  | 7 => .t1lh
  | 8 => .t2cl
  | 9 => .t2ch
  | 10 => .sr
  | 11 => .acr
  | 12 => .pcr
  | 13 => .ifr
  | 14 => .ier
  | _ => .oraNoHandshake

/-- What a register read returns. -/
def viaReadValue (ierBit7 : Bool) (reg : ViaReg) (v : Via) : Byte :=
  match reg with
  | .orb => v.readPortB                                  -- R303
  | .ora => v.readPortA                                  -- R305
  | .ddrb => v.ddrb                                      -- R307
  | .ddra => v.ddra                                      -- R308
  | .t1cl => loByte v.t1c                                -- R309
  | .t1ch => hiByte v.t1c                                -- R311
  | .t1ll => loByte v.t1l                                -- R313
  | .t1lh => hiByte v.t1l                                -- R314
  | .t2cl => loByte v.t2c                                -- R316
  | .t2ch => hiByte v.t2c                                -- R318
  | .sr => v.sr                                          -- R320
  | .acr => v.acr                                        -- R322
  | .pcr => v.pcr                                        -- R324
  | .ifr => BitVec.ofBool v.irqLine ++ v.ifr             -- R326
  | .ier => BitVec.ofBool ierBit7 ++ v.ier               -- R329
  | .oraNoHandshake => v.readPortA                       -- R332

/-- The side effect of a register read. -/
def viaReadEffect (reg : ViaReg) (s : State) : State :=
  match reg with
  | .orb => portBFlags s                                 -- R303
  | .ora => mapVia handshakeA (portAFlags s)             -- R305
  | .t1cl => clearFlags (sourceMask .t1) s               -- R309
  | .t2cl => clearFlags (sourceMask .t2) s               -- R316
  | .sr => mapVia srArm (clearFlags (sourceMask .sr) s)  -- R320
  | .ddrb | .ddra | .t1ch | .t1ll | .t1lh | .t2ch | .acr | .pcr | .ifr | .ier
  | .oraNoHandshake => s

/-- `load8` of the PeripheralController: the register's value, then its side effect. -/
def viaRead (reg : ViaReg) (s : State) : Byte × State :=
  (viaReadValue s.cfg.ierReadBit7 reg s.via, viaReadEffect reg s)

/-- Write of register 5: the latch high byte, load of the counter, arming, the grace flag, the T1 flag,
and port B bit 7 forced low when `ACR[7] = 1` (R312). -/
def writeT1CounterHigh (d : Byte) (s : State) : State :=
  let load := fun (v : Via) =>
    let l := joinBytes d (loByte v.t1l)
    { v with t1l := l, t1c := l, t1Armed := true, t1JustLoaded := true }
  let force := fun (v : Via) => if t1Pb7En v.acr then { v with t1Pb7 := false } else v
  mapVia force (clearFlags (sourceMask .t1) (mapVia load s))

/-- Write of register 8: the latch low byte; in pulse mode it also disarms (R317). -/
def writeT2LatchLow (d : Byte) (v : Via) : Via :=
  { v with
    t2l := joinBytes (hiByte v.t2l) d
    t2Armed := if t2Pulse v.acr then false else v.t2Armed }

/-- Write of register 9: the latch high byte, load of the counter, the T2 flag; it arms in free-running
mode and disarms in pulse mode (R319). -/
def writeT2CounterHigh (d : Byte) (s : State) : State :=
  let load := fun (v : Via) =>
    let l := joinBytes d (loByte v.t2l)
    { v with t2l := l, t2c := l }
  let arm := fun (v : Via) =>
    { v with t2Armed := !t2Pulse v.acr, t2JustLoaded := !t2Pulse v.acr }
  mapVia arm (clearFlags (sourceMask .t2) (mapVia load s))

/-- Write of register 11: a change of the shift-register mode re-arms the shift register (R323). -/
def writeAcr (d : Byte) (v : Via) : Via :=
  let v' := { v with acr := d }
  if srModeBits d != srModeBits v.acr then srArm v' else v'

/-- The A side of a PCR write (R325). -/
def pcrSideA (v : Via) : Via :=
  match ca2Mode v.pcr with
  | .manualLow => { v with ca2Out := false }
  | .manualHigh => { v with ca2Out := true }
  | .handshake | .pulse => { v with ca2Out := true, ca2Pulse := false }
  | .inputFalling | .independentFalling | .inputRising | .independentRising => v

/-- The B side of a PCR write (R325). -/
def pcrSideB (v : Via) : Via :=
  match cb2Mode v.pcr with
  | .manualLow => { v with cb2Out := false }
  | .manualHigh => { v with cb2Out := true }
  | .handshake | .pulse => { v with cb2Out := true, cb2Pulse := false }
  | .inputFalling | .independentFalling | .inputRising | .independentRising => v

/-- Write of register 13: each 1 in bits 6:0 clears its flag, and bit 7 adds the flagged-and-enabled
set (R328). -/
def writeIfr (d : Byte) (s : State) : State :=
  let named := d.extractLsb' 0 7
  clearFlags (if d.getLsbD 7 then named ||| (s.via.ifr &&& s.via.ier) else named) s

/-- Write of register 14: bit 7 selects set or clear of the enables named in bits 6:0 (R327). -/
def writeIer (d : Byte) (s : State) : State :=
  let named := d.extractLsb' 0 7
  updateIrq (mapVia (fun v =>
    { v with ier := if d.getLsbD 7 then v.ier ||| named else v.ier &&& ~~~named }) s)

/-- `store8` of the PeripheralController. -/
def viaWrite (reg : ViaReg) (d : Byte) (s : State) : State :=
  match reg with
  | .orb => mapVia handshakeB (portBFlags (mapVia (fun v => { v with orb := d }) s))     -- R304
  | .ora => mapVia handshakeA (portAFlags (mapVia (fun v => { v with ora := d }) s))     -- R306
  | .ddrb => mapVia (fun v => { v with ddrb := d }) s                                    -- R307
  | .ddra => mapVia (fun v => { v with ddra := d }) s                                    -- R308
  | .t1cl => mapVia (fun v => { v with t1l := joinBytes (hiByte v.t1l) d }) s            -- R310
  | .t1ch => writeT1CounterHigh d s                                                      -- R312
  | .t1ll => mapVia (fun v => { v with t1l := joinBytes (hiByte v.t1l) d }) s            -- R313
  | .t1lh =>                                                                             -- R315
    clearFlags (sourceMask .t1) (mapVia (fun v => { v with t1l := joinBytes d (loByte v.t1l) }) s)
  | .t2cl => mapVia (writeT2LatchLow d) s                                                -- R317
  | .t2ch => writeT2CounterHigh d s                                                      -- R319
  | .sr => mapVia srArm (clearFlags (sourceMask .sr) (mapVia (fun v => { v with sr := d }) s)) -- R321
  | .acr => mapVia (writeAcr d) s                                                        -- R323
  | .pcr => mapVia (fun v => pcrSideB (pcrSideA { v with pcr := d })) s                  -- R325
  | .ifr => writeIfr d s                                                                 -- R328
  | .ier => writeIer d s                                                                 -- R327
  | .oraNoHandshake => mapVia (fun v => { v with ora := d }) s                           -- R333

end Sys2Proof.Machine
end

