-- ==== Sys2Proof/Machine/ViaTick.lean ====
section
/-! DEFINITION. One tick of the PeripheralController: pulse end, timer 1, timer 2, shift register
(47_via_tick R340), and `via.reset()` (R359, 10_state R45). -/

namespace Sys2Proof.Machine

/-- Pulse end: a pulse output driven low returns high (R347). -/
def pulseEnd (v : Via) : Via :=
  { v with
    ca2Out := if v.ca2Pulse then true else v.ca2Out
    ca2Pulse := false
    cb2Out := if v.cb2Pulse then true else v.cb2Out
    cb2Pulse := false }

-- Timer 1.

/-- What an armed timer 1 expiry does to `T1_armed` and `T1_PB7`, by `ACR[7:6]` (R342): one-shot;
continuous with a toggling bit; one-shot with an output pulse ended here; continuous square wave. -/
def t1Behaviour (v : Via) : Via :=
  match t1Pb7En v.acr, t1Cont v.acr with
  | false, false => { v with t1Armed := false }
  | false, true => { v with t1Pb7 := !v.t1Pb7 }
  | true, false => { v with t1Armed := false, t1Pb7 := true }
  | true, true => { v with t1Pb7 := !v.t1Pb7 }

/-- `t1Expire()`: flag and behaviour when armed, and the reload from the latch whether armed or not
(R342). -/
def t1Expire (s : State) : State :=
  let reload := fun (v : Via) => { v with t1c := v.t1l }
  if s.via.t1Armed then mapVia reload (mapVia t1Behaviour (setFlag .t1 s)) else mapVia reload s

/-- Timer 1 tick: the grace tick after a CPU load, the expiry at 0, or a decrement (R341). -/
def t1Tick (s : State) : State :=
  if s.via.t1JustLoaded then mapVia (fun v => { v with t1JustLoaded := false }) s
  else if s.via.t1c = 0 then t1Expire s
  else mapVia (fun v => { v with t1c := v.t1c - 1 }) s

-- Timer 2.

/-- `t2Expire()` less its local signal: one flag per arming, then the reload (R346). -/
def t2Expire (s : State) : State :=
  let reload := fun (v : Via) => { v with t2c := v.t2l }
  if s.via.t2Armed then
    mapVia reload (mapVia (fun v => { v with t2Armed := false }) (setFlag .t2 s))
  else mapVia reload s

/-- One count of timer 2, and whether it expired (`t2Expired`, R344 to R346). -/
def t2Count (s : State) : State × Bool :=
  if s.via.t2c = 0 then (t2Expire s, true)
  else (mapVia (fun v => { v with t2c := v.t2c - 1 }) s, false)

/-- The sampling of port B bit 6, done in both modes (R344). -/
def samplePb6 (v : Via) : Via := { v with pb6Prev := v.pbPin.getLsbD 6 }

/-- Timer 2 tick, free-running (R344) or counting falling edges of PB6 (R345), and `t2Expired`. -/
def t2Tick (s : State) : State × Bool :=
  let fall := s.via.pb6Prev && !s.via.pbPin.getLsbD 6
  let s1 := mapVia samplePb6 s
  if t2Pulse s1.via.acr then (if fall then t2Count s1 else (s1, false))
  else if s1.via.t2JustLoaded then (mapVia (fun v => { v with t2JustLoaded := false }) s1, false)
  else t2Count s1

-- Shift register.

/-- The clock sources of the shift-register modes (R350). -/
inductive SrClock where
  | none | t2Expiry | everyTick | cb1
  deriving DecidableEq, Repr

/-- The clock-source column of the mode table of R350. All eight values of the 3-bit field are modes, so
the impossible mode of R357 cannot be written. -/
def srClockOf (mode : BitVec 3) : SrClock :=
  match mode.toNat with
  | 0 => .none
  | 1 => .t2Expiry
  | 2 => .everyTick
  | 3 => .cb1
  | 4 => .t2Expiry
  | 5 => .t2Expiry
  | 6 => .everyTick
  | _ => .cb1

/-- The chip generates the shift clock on CB1: modes 0b001, 0b010, 0b100, 0b101, 0b110 (R350, R352). -/
def srInternal (mode : BitVec 3) : Bool :=
  match srClockOf mode with
  | .t2Expiry | .everyTick => true
  | .none | .cb1 => false

/-- Shifting out: `mode[2] = 1` (R352). -/
def srOut (mode : BitVec 3) : Bool := mode.getLsbD 2

/-- `srDone()` (R355). -/
def srDone (s : State) : State :=
  mapVia (fun v => { v with srActive := false }) (setFlag .sr s)

/-- The notify phase: the clock falls, and a shift out presents bit 7 on CB2 (R352). -/
def srNotify (v : Via) : Via :=
  let mode := srModeBits v.acr
  { v with
    cb1Out := if srInternal mode then false else v.cb1Out
    cb2Out := if srOut mode then v.sr.getLsbD 7 else v.cb2Out
    srPhase := .shift }

/-- The shift phase: the clock rises and the register moves one place to the left, taking bit 7 (out) or
the CB2 input (in) into bit 0 (R352). -/
def srShift (v : Via) : Via :=
  let mode := srModeBits v.acr
  let low := if srOut mode then v.sr.getLsbD 7 else v.cb2In
  { v with
    cb1Out := if srInternal mode then true else v.cb1Out
    sr := v.sr.extractLsb' 0 7 ++ BitVec.ofBool low
    srCount := v.srCount + 1
    srPhase := .notify }

/-- One phase, `srStep()`: nothing while halted; after the eighth transfer, `srDone()` (R352). -/
def srStep (s : State) : State :=
  if s.via.srActive then
    match s.via.srPhase with
    | .notify => mapVia srNotify s
    | .shift =>
      let s1 := mapVia srShift s
      if s1.via.srCount = 8 then srDone s1 else s1
  else s

/-- Shift-register clocking inside a tick (R351). -/
def srClock (t2Expired : Bool) (s : State) : State :=
  match srClockOf (srModeBits s.via.acr) with
  | .everyTick => srStep s
  | .t2Expiry => if t2Expired then srStep s else s
  | .none | .cb1 => s

/-- One tick, its four parts in the order of R340. -/
def tick (s : State) : State :=
  let r := t2Tick (t1Tick (mapVia pulseEnd s))
  srClock r.2 r.1

/-- `n` ticks, one after the other (70_reset_and_hazards R452). -/
def ticks : Nat → State → State
  | 0, s => s
  | n + 1, s => ticks n (tick s)

/-- The registers that `via.reset()` writes (10_state R45), less the line: the counters, the latches, SR
and the pin inputs keep their values, and `PB6_prev` is evaluated last. -/
def viaResetRegs (v : Via) : Via :=
  let v' :=
    { v with
      ora := 0, orb := 0, ira := 0, irb := 0, ddra := 0, ddrb := 0
      acr := 0, pcr := 0, ifr := 0, ier := 0
      t1Armed := false, t2Armed := false, t1JustLoaded := false, t2JustLoaded := false
      t1Pb7 := true
      srCount := 0, srPhase := .notify, srActive := false
      ca2Out := true, cb1Out := true, cb2Out := true
      ca2Pulse := false, cb2Pulse := false }
  samplePb6 v'

/-- `via.reset()`: the registers, then the line, lowered through the handler if it was up (R359,
10_state R45). -/
def viaReset (s : State) : State := updateIrq (mapVia viaResetRegs s)

end Sys2Proof.Machine
end

