-- ==== Sys2Proof/Machine/Ops.lean ====
section
/-! DEFINITION. The named operations over memory and registers: the four access primitives routed by the
map (20_memory R72 to R75), the stack, the condition-code byte, the cost, taking an interrupt and
returning from one (00_scope R10). -/

namespace Sys2Proof.Machine

/-- `owner(a)` (20_memory R80). -/
def owner (s : State) (a : Word) : DeviceKind := ownerIn s.cfg.map a.toNat

/-- The stub's byte: 0xAA at the diagnostic address, 0x00 at every other (20_memory R77). -/
def stubByte (cfg : Config) (a : Word) : Byte := if a = cfg.diagAddr then 0xAA else 0x00

/-- `load8(addr)`, the meaning of `MemRead(addr,1)`, routed to the owner of the address (20_memory R72;
RAM and ROM 10_state R31, stub R77, VIA 46_via_registers R300). -/
def load8 (a : Word) (s : State) : Byte × State :=
  match owner s a with
  | .ram | .rom => (readByte s.mem a.toNat, s)
  | .via => viaRead (viaRegOf a) s
  | .stub => (stubByte s.cfg a, s)

/-- `store8(addr, v)`, the meaning of `MemWrite(addr,1,v)` (20_memory R73): ROM and the stub drop it
(10_state R31, R77). -/
def store8 (a : Word) (v : Byte) (s : State) : State :=
  match owner s a with
  | .ram => { s with mem := writeByte s.mem a.toNat v }
  | .via => viaWrite (viaRegOf a) v s
  | .rom | .stub => s

/-- `load16(addr)`: the byte at `addr` first, in the high half, then the byte at `addr+1`, each wrapped
and routed on its own (20_memory R74, R84). -/
def load16 (a : Word) (s : State) : Word × State :=
  let h := load8 a s
  let l := load8 (a + 1) h.2
  (joinBytes h.1 l.1, l.2)

/-- `store16(addr, v)`: `v[15:8]` at `addr`, then `v[7:0]` at `addr+1` (20_memory R75). -/
def store16 (a : Word) (v : Word) (s : State) : State :=
  store8 (a + 1) (loByte v) (store8 a (hiByte v) s)

/-- Applies a function to the CPU record. -/
def onCpu (f : Cpu → Cpu) (s : State) : State := { s with cpu := f s.cpu }

/-- `cost(n)` (00_scope R10). -/
def addCost (n : Nat) (s : State) : State := { s with clock := s.clock + n }

/-- `cost(CYCLES[opcode])` (30_encoding R108). -/
def chargeOpcode (op : Byte) (s : State) : State := addCost (cyclesOf s.cfg op) s

-- The stack (00_scope R10, 10_state R22).

/-- `push8(v)`: a write at SP, then SP - 1. -/
def push8 (v : Byte) (s : State) : State :=
  onCpu (fun k => { k with sp := k.sp - 1 }) (store8 s.cpu.sp v s)

/-- `pull8()`: SP + 1, then a read at SP. -/
def pull8 (s : State) : Byte × State :=
  let s1 := onCpu (fun k => { k with sp := k.sp + 1 }) s
  load8 s1.cpu.sp s1

/-- `push16(v)`: low byte first. -/
def push16 (v : Word) (s : State) : State := push8 (hiByte v) (push8 (loByte v) s)

/-- `pull16()`: high byte first. -/
def pull16 (s : State) : Word × State :=
  let h := pull8 s
  let l := pull8 h.2
  (joinBytes h.1 l.1, l.2)

-- The condition-code byte (10_state R25).

/-- `ccr()`: `(1,1,H,I,N,Z,V,C)`. -/
def Cpu.ccr (k : Cpu) : Byte := byteOfBits true true k.h k.i k.n k.z k.v k.c

/-- `setccr(v)`; bits 7 and 6 are dropped. -/
def Cpu.setCcr (v : Byte) (k : Cpu) : Cpu :=
  { k with
    h := v.getLsbD 5, i := v.getLsbD 4, n := v.getLsbD 3,
    z := v.getLsbD 2, v := v.getLsbD 1, c := v.getLsbD 0 }

-- Taking an interrupt and returning from one.

/-- `pushAll()`: pc, IX, A, B, condition codes, seven bytes downward (00_scope R10, 60_exceptions R404).
No push writes a register other than SP, so the values pushed are those of the start. -/
def pushAll (s : State) : State :=
  push8 s.cpu.ccr (push8 s.cpu.b (push8 s.cpu.a (push16 s.cpu.ix (push16 s.cpu.pc s))))

/-- The shared push-and-vector sequence of interrupt entry (60_exceptions R404) and SWI (44_system R258):
`pushAll(); I <- 1; pc <- MemRead(vec,2); cost(n)`. -/
def enterThroughVector (vec : Word) (n : Nat) (s : State) : State :=
  let s1 := onCpu (fun k => { k with i := true }) (pushAll s)
  let w := load16 vec s1
  addCost n (onCpu (fun k => { k with pc := w.1 }) w.2)

/-- `pullAll()`: condition codes, B, A, IX, pc (00_scope R10): the return from an interrupt
(60_exceptions R408). -/
def pullAll (s : State) : State :=
  let cc := pull8 s
  let b := pull8 (onCpu (Cpu.setCcr cc.1) cc.2)
  let a := pull8 (onCpu (fun k => { k with b := b.1 }) b.2)
  let x := pull16 (onCpu (fun k => { k with a := a.1 }) a.2)
  let p := pull16 (onCpu (fun k => { k with ix := x.1 }) x.2)
  onCpu (fun k => { k with pc := p.1 }) p.2

/-- The outcome of every instruction: the next state after `cost(CYCLES[opcode])` (30_encoding R108).
No instruction faults (60_exceptions R410). -/
def finish (op : Byte) (s : State) : Host.Outcome State Fault Refusal := .next (chargeOpcode op s)

end Sys2Proof.Machine
end

