-- ==== Sys2Proof/Machine/Operands.lean ====
section
/-! DEFINITION. The operand forms (30_encoding R103 to R107, R115). The operand bytes have been fetched
before the meaning runs (log 10), so `pc` is the address of the next instruction. -/

namespace Sys2Proof.Machine

/-- Direct page: `zext_16(addr8)`, "always page zero" (R105). -/
def eaDir (a : Byte) : Word := zext16 a

/-- Indexed: `(IX + zext_16(off8)) & 0xFFFF`, IX unchanged (R104). -/
def eaIdx (off : Byte) (s : State) : Word := s.cpu.ix + zext16 off

/-- The relative target: `(pc + sext_16(rel)) & 0xFFFF` (R107, 43_branch_jump R221). -/
def relTarget (pc : Word) (rel : Byte) : Word := pc + sext16 rel

/-- The effective address of a store. -/
def storeEa (m : StoreAddr) (s : State) : Word :=
  match m with
  | .dir a => eaDir a
  | .idx off => eaIdx off s
  | .ext a => a

/-- The effective address of a read-modify-write, CLR, TST, JMP or JSR. -/
def memEa (m : MemAddr) (s : State) : Word :=
  match m with
  | .idx off => eaIdx off s
  | .ext a => a

/-- Reads an 8-bit operand; in IMM8 "no data access happens" (40_load_store_transfer R120(e)). -/
def readOperand8 (m : Operand8) (s : State) : Byte × State :=
  match m with
  | .imm v => (v, s)
  | .dir a => load8 (eaDir a) s
  | .idx off => load8 (eaIdx off s) s
  | .ext a => load8 a s

/-- Reads a 16-bit operand. -/
def readOperand16 (m : Operand16) (s : State) : Word × State :=
  match m with
  | .imm v => (v, s)
  | .dir a => load16 (eaDir a) s
  | .idx off => load16 (eaIdx off s) s
  | .ext a => load16 a s

/-- Reads the operand of ADX: the immediate zero-extended, or a word of memory (R103, R178). -/
def readAdxOperand (m : AdxOperand) (s : State) : Word × State :=
  match m with
  | .imm v => (zext16 v, s)
  | .ext a => load16 a s

/-- Reads an 8-bit operand and gives it to a register-and-flag computation. -/
def withOperand8 (m : Operand8) (f : Byte → Cpu → Cpu) (s : State) : State :=
  let r := readOperand8 m s
  onCpu (f r.1) r.2

/-- The same for a 16-bit operand. -/
def withOperand16 (m : Operand16) (f : Word → Cpu → Cpu) (s : State) : State :=
  let r := readOperand16 m s
  onCpu (f r.1) r.2

/-- A read-modify-write of a memory byte: "read once and written once at the same `ea`" (42_logic_shift,
20_memory R87). -/
def modifyByte (ea : Word) (f : Byte → Cpu → Byte × Cpu) (s : State) : State :=
  let m := load8 ea s
  let r := f m.1 m.2.cpu
  onCpu (fun _ => r.2) (store8 ea r.1 m.2)

/-- Reads a memory byte for its flags only. -/
def testByte (ea : Word) (f : Byte → Cpu → Cpu) (s : State) : State :=
  let m := load8 ea s
  onCpu (f m.1) m.2

/-- The two accumulators, as the opcode names them (00_scope R8). -/
inductive Acc where
  | a | b
  deriving DecidableEq, Repr

/-- Reads `ACC`. -/
def getAcc : Acc → Cpu → Byte
  | .a, k => k.a
  | .b, k => k.b

/-- Writes `ACC`. -/
def setAcc : Acc → Byte → Cpu → Cpu
  | .a, v, k => { k with a := v }
  | .b, v, k => { k with b := v }

/-- The one-operand computation applied to an accumulator. -/
def modifyAcc (acc : Acc) (f : Byte → Cpu → Byte × Cpu) (k : Cpu) : Cpu :=
  let r := f (getAcc acc k) k
  setAcc acc r.1 r.2

end Sys2Proof.Machine
end

