-- ==== Sys2Proof/Machine/Flags.lean ====
section
/-! DEFINITION. The arithmetic, logic and shift computations with the flags they write, as functions of
the CPU record. A flag a function does not name keeps its value (10_state R24). -/

namespace Sys2Proof.Machine

/-- `setNZ8(r)` (00_scope R10). -/
def setNZ8 (r : Byte) (k : Cpu) : Cpu := { k with n := r.getLsbD 7, z := r == 0 }

/-- `setNZ16(r)` (00_scope R10). -/
def setNZ16 (r : Word) (k : Cpu) : Cpu := { k with n := r.getLsbD 15, z := r == 0 }

/-- N and Z from a byte, V cleared: loads, stores, transfers and logic. -/
def setNZ8V0 (r : Byte) (k : Cpu) : Cpu := { setNZ8 r k with v := false }

/-- N and Z from a word, V cleared. -/
def setNZ16V0 (r : Word) (k : Cpu) : Cpu := { setNZ16 r k with v := false }

-- Addition and subtraction (00_scope R10, 41_arithmetic R150).

/-- `add8(a, m, c)`: H, V, C, N, Z. -/
def add8 (a m : Byte) (c : Bool) (k : Cpu) : Byte × Cpu :=
  let s := a.toNat + m.toNat + bitNat c
  let r := BitVec.ofNat 8 s
  (r, setNZ8 r { k with
    h := decide (a.toNat % 16 + m.toNat % 16 + bitNat c > 0xF)
    v := (a.getLsbD 7 == m.getLsbD 7) && (r.getLsbD 7 != a.getLsbD 7)
    c := decide (s > 0xFF) })

/-- `sub8(a, m, c)`: V, C, N, Z; H is not written. -/
def sub8 (a m : Byte) (c : Bool) (k : Cpu) : Byte × Cpu :=
  let d : Int := (a.toNat : Int) - (m.toNat : Int) - (bitNat c : Int)
  let r := BitVec.ofInt 8 d
  (r, setNZ8 r { k with
    v := (a.getLsbD 7 != m.getLsbD 7) && (r.getLsbD 7 != a.getLsbD 7)
    c := decide (d < 0) })

/-- ADD: `ACC <- add8(ACC, m, 0)` (R151). -/
def addToAcc (acc : Acc) (m : Byte) (k : Cpu) : Cpu :=
  let r := add8 (getAcc acc k) m false k
  setAcc acc r.1 r.2

/-- ADC: `ACC <- add8(ACC, m, C)` (R152). -/
def adcToAcc (acc : Acc) (m : Byte) (k : Cpu) : Cpu :=
  let r := add8 (getAcc acc k) m k.c k
  setAcc acc r.1 r.2

/-- SUB: `ACC <- sub8(ACC, m, 0)` (R154). -/
def subFromAcc (acc : Acc) (m : Byte) (k : Cpu) : Cpu :=
  let r := sub8 (getAcc acc k) m false k
  setAcc acc r.1 r.2

/-- SBC: `ACC <- sub8(ACC, m, C)` (R155). -/
def sbcFromAcc (acc : Acc) (m : Byte) (k : Cpu) : Cpu :=
  let r := sub8 (getAcc acc k) m k.c k
  setAcc acc r.1 r.2

/-- CMP: the flags of `sub8(ACC, m, 0)`, the difference discarded (R157). -/
def compareAcc (acc : Acc) (m : Byte) (k : Cpu) : Cpu := (sub8 (getAcc acc k) m false k).2

-- Loads and logic.

/-- LDA (R121). -/
def loadAcc (acc : Acc) (v : Byte) (k : Cpu) : Cpu := setNZ8V0 v (setAcc acc v k)

/-- AND (R190). -/
def andAcc (acc : Acc) (m : Byte) (k : Cpu) : Cpu := loadAcc acc (getAcc acc k &&& m) k

/-- ORA (R192). -/
def orAcc (acc : Acc) (m : Byte) (k : Cpu) : Cpu := loadAcc acc (getAcc acc k ||| m) k

/-- EOR (R193). -/
def eorAcc (acc : Acc) (m : Byte) (k : Cpu) : Cpu := loadAcc acc (getAcc acc k ^^^ m) k

/-- BIT: the flags of AND, the accumulator not written (R191). -/
def bitAcc (acc : Acc) (m : Byte) (k : Cpu) : Cpu := setNZ8V0 (getAcc acc k &&& m) k

-- One-operand arithmetic on a byte (41_arithmetic section 4).

/-- NEG (R159). -/
def negByte (m : Byte) (k : Cpu) : Byte × Cpu :=
  let r := 0 - m
  (r, setNZ8 r { k with v := r == 0x80, c := r != 0x00 })

/-- INC: C is not written (R160). -/
def incByte (m : Byte) (k : Cpu) : Byte × Cpu :=
  let r := m + 1
  (r, setNZ8 r { k with v := m == 0x7F })

/-- DEC: C is not written (R161). -/
def decByte (m : Byte) (k : Cpu) : Byte × Cpu :=
  let r := m - 1
  (r, setNZ8 r { k with v := m == 0x80 })

/-- The flags of CLR: `N <- 0; Z <- 1; V <- 0; C <- 0` (R162). -/
def clearFlagsOf (k : Cpu) : Cpu := { k with n := false, z := true, v := false, c := false }

/-- The flags of TST (R163). -/
def testFlagsOf (m : Byte) (k : Cpu) : Cpu := { setNZ8 m k with v := false, c := false }

/-- COM: C is set (42_logic_shift R194). -/
def comByte (m : Byte) (k : Cpu) : Byte × Cpu :=
  let r := ~~~m
  (r, { setNZ8 r k with v := false, c := true })

-- Shifts and rotates by one place (42_logic_shift R195).

/-- The flags of a shift with result `r` and shifted-out bit `out`: C, N, Z, then `V <- N ^ C` (R195). -/
def shiftFlags (r : Byte) (out : Bool) (k : Cpu) : Cpu :=
  let k1 := setNZ8 r { k with c := out }
  { k1 with v := k1.n != k1.c }

/-- ASL (R196). -/
def aslByte (m : Byte) (k : Cpu) : Byte × Cpu :=
  let r := m <<< 1
  (r, shiftFlags r (m.getLsbD 7) k)

/-- ASR: bit 7 is kept (R197). -/
def asrByte (m : Byte) (k : Cpu) : Byte × Cpu :=
  let r := (m >>> 1) ||| (m &&& 0x80)
  (r, shiftFlags r (m.getLsbD 0) k)

/-- LSR: bit 7 becomes 0, so N is 0 (R198). -/
def lsrByte (m : Byte) (k : Cpu) : Byte × Cpu :=
  let r := m >>> 1
  (r, shiftFlags r (m.getLsbD 0) k)

/-- ROL: the old C enters at bit 0 (R199). -/
def rolByte (m : Byte) (k : Cpu) : Byte × Cpu :=
  let r := (m <<< 1) ||| (if k.c then 0x01 else 0x00)
  (r, shiftFlags r (m.getLsbD 7) k)

/-- ROR: the old C enters at bit 7 (R200). -/
def rorByte (m : Byte) (k : Cpu) : Byte × Cpu :=
  let r := (m >>> 1) ||| (if k.c then 0x80 else 0x00)
  (r, shiftFlags r (m.getLsbD 0) k)

-- Decimal adjust and 16-bit arithmetic.

/-- The correction DAA adds (R164). -/
def daaCorrection (a : Byte) (h c : Bool) : Nat :=
  let lo := a.toNat % 16
  let hi := a.toNat / 16
  (if decide (lo > 9) || h then 0x06 else 0x00) +
    (if decide (hi > 9) || c || (decide (hi > 8) && decide (lo > 9)) then 0x60 else 0x00)

/-- DAA: N, Z, V by the parameter `DAA_V`, and C, which it never clears (R164). -/
def daaAcc (cfg : Config) (k : Cpu) : Cpu :=
  let s := k.a.toNat + daaCorrection k.a k.h k.c
  let r := BitVec.ofNat 8 s
  setNZ8 r { k with a := r, v := daaV cfg k.a k.h k.c, c := k.c || decide (s > 0xFF) }

/-- `CPX_NV`: N and V after CPX, by the rule the parameter selects (R169). -/
def cpxNV (rule : CpxRule) (ix m : Word) : Bool × Bool :=
  match rule with
  | .sixteenBit =>
    let r := ix - m
    (r.getLsbD 15, (ix.getLsbD 15 != m.getLsbD 15) && (r.getLsbD 15 != ix.getLsbD 15))
  | .highByte =>
    let q := hiByte ix - hiByte m
    (q.getLsbD 7, (ix.getLsbD 15 != m.getLsbD 15) && (q.getLsbD 7 != ix.getLsbD 15))

/-- CPX: N, Z, V; IX and C are not written (R169). -/
def compareIx (cfg : Config) (m : Word) (k : Cpu) : Cpu :=
  let nv := cpxNV cfg.cpxNV k.ix m
  { k with z := k.ix - m == 0, n := nv.1, v := nv.2 }

/-- ADX: N, Z, V, C from the 16-bit sum; H unchanged (R178). -/
def addToIx (m : Word) (k : Cpu) : Cpu :=
  let s := k.ix.toNat + m.toNat
  let r := BitVec.ofNat 16 s
  setNZ16 r { k with
    ix := r
    v := (k.ix.getLsbD 15 == m.getLsbD 15) && (r.getLsbD 15 != k.ix.getLsbD 15)
    c := decide (s > 0xFFFF) }

/-- Writes the three flags of a memory-immediate instruction (R201 to R204). -/
def setNZV (f : NZV) (k : Cpu) : Cpu := { k with n := f.n, z := f.z, v := f.v }

/-- A memory-immediate result with its flags (R201 to R203, 93_implementation_defined U9). -/
def memImmResult (cfg : Config) (r : Byte) (k : Cpu) : Byte × Cpu :=
  (r, setNZV (memImmFlags cfg r) k)

end Sys2Proof.Machine
end

