-- ==== Sys2Proof/Machine/Arithmetic.lean ====
section
/-! DEFINITION. Arithmetic, compare, increment, decimal adjust (41_arithmetic R151 to R169, R178). -/

namespace Sys2Proof.Machine

/-- ADDA: add memory to accumulator (R151). -/
def execAdda (m : Operand8) (s : State) : Host.Outcome State Fault Refusal :=
  finish (Instr.opcode (.adda m)) (withOperand8 m (addToAcc .a) s)

/-- ADDB: add memory to accumulator (R151). -/
def execAddb (m : Operand8) (s : State) : Host.Outcome State Fault Refusal :=
  finish (Instr.opcode (.addb m)) (withOperand8 m (addToAcc .b) s)

/-- ADCA: add memory and carry to accumulator (R152). -/
def execAdca (m : Operand8) (s : State) : Host.Outcome State Fault Refusal :=
  finish (Instr.opcode (.adca m)) (withOperand8 m (adcToAcc .a) s)

/-- ADCB: add memory and carry to accumulator (R152). -/
def execAdcb (m : Operand8) (s : State) : Host.Outcome State Fault Refusal :=
  finish (Instr.opcode (.adcb m)) (withOperand8 m (adcToAcc .b) s)

/-- ABA: add B to A (R153). -/
def execAba (s : State) : Host.Outcome State Fault Refusal :=
  finish (Instr.opcode .aba) (onCpu (fun k => addToAcc .a k.b k) s)

/-- SUBA: subtract memory from accumulator (R154). -/
def execSuba (m : Operand8) (s : State) : Host.Outcome State Fault Refusal :=
  finish (Instr.opcode (.suba m)) (withOperand8 m (subFromAcc .a) s)

/-- SUBB: subtract memory from accumulator (R154). -/
def execSubb (m : Operand8) (s : State) : Host.Outcome State Fault Refusal :=
  finish (Instr.opcode (.subb m)) (withOperand8 m (subFromAcc .b) s)

/-- SBCA: subtract memory and carry from accumulator (R155). -/
def execSbca (m : Operand8) (s : State) : Host.Outcome State Fault Refusal :=
  finish (Instr.opcode (.sbca m)) (withOperand8 m (sbcFromAcc .a) s)

/-- SBCB: subtract memory and carry from accumulator (R155). -/
def execSbcb (m : Operand8) (s : State) : Host.Outcome State Fault Refusal :=
  finish (Instr.opcode (.sbcb m)) (withOperand8 m (sbcFromAcc .b) s)

/-- SBA: subtract B from A (R156). -/
def execSba (s : State) : Host.Outcome State Fault Refusal :=
  finish (Instr.opcode .sba) (onCpu (fun k => subFromAcc .a k.b k) s)

/-- CMPA: compare accumulator with memory (R157). -/
def execCmpa (m : Operand8) (s : State) : Host.Outcome State Fault Refusal :=
  finish (Instr.opcode (.cmpa m)) (withOperand8 m (compareAcc .a) s)

/-- CMPB: compare accumulator with memory (R157). -/
def execCmpb (m : Operand8) (s : State) : Host.Outcome State Fault Refusal :=
  finish (Instr.opcode (.cmpb m)) (withOperand8 m (compareAcc .b) s)

/-- CBA: compare A with B (R158). -/
def execCba (s : State) : Host.Outcome State Fault Refusal :=
  finish (Instr.opcode .cba) (onCpu (fun k => compareAcc .a k.b k) s)

/-- NEGA: negate A (R159). -/
def execNega (s : State) : Host.Outcome State Fault Refusal :=
  finish (Instr.opcode .nega) (onCpu (modifyAcc .a negByte) s)

/-- NEGB: negate B (R159). -/
def execNegb (s : State) : Host.Outcome State Fault Refusal :=
  finish (Instr.opcode .negb) (onCpu (modifyAcc .b negByte) s)

/-- NEG: negate a memory byte (R159). -/
def execNeg (m : MemAddr) (s : State) : Host.Outcome State Fault Refusal :=
  finish (Instr.opcode (.neg m)) (modifyByte (memEa m s) negByte s)

/-- INCA: increment A (R160). -/
def execInca (s : State) : Host.Outcome State Fault Refusal :=
  finish (Instr.opcode .inca) (onCpu (modifyAcc .a incByte) s)

/-- INCB: increment B (R160). -/
def execIncb (s : State) : Host.Outcome State Fault Refusal :=
  finish (Instr.opcode .incb) (onCpu (modifyAcc .b incByte) s)

/-- INC: increment a memory byte (R160). -/
def execInc (m : MemAddr) (s : State) : Host.Outcome State Fault Refusal :=
  finish (Instr.opcode (.inc m)) (modifyByte (memEa m s) incByte s)

/-- DECA: decrement A (R161). -/
def execDeca (s : State) : Host.Outcome State Fault Refusal :=
  finish (Instr.opcode .deca) (onCpu (modifyAcc .a decByte) s)

/-- DECB: decrement B (R161). -/
def execDecb (s : State) : Host.Outcome State Fault Refusal :=
  finish (Instr.opcode .decb) (onCpu (modifyAcc .b decByte) s)

/-- DEC: decrement a memory byte (R161). -/
def execDec (m : MemAddr) (s : State) : Host.Outcome State Fault Refusal :=
  finish (Instr.opcode (.dec m)) (modifyByte (memEa m s) decByte s)

/-- CLRA: clear A (R162). -/
def execClra (s : State) : Host.Outcome State Fault Refusal :=
  finish (Instr.opcode .clra) (onCpu (fun k => clearFlagsOf { k with a := 0 }) s)

/-- CLRB: clear B (R162). -/
def execClrb (s : State) : Host.Outcome State Fault Refusal :=
  finish (Instr.opcode .clrb) (onCpu (fun k => clearFlagsOf { k with b := 0 }) s)

/-- CLR: clear a memory byte: only the write, no read (R162). -/
def execClr (m : MemAddr) (s : State) : Host.Outcome State Fault Refusal :=
  finish (Instr.opcode (.clr m)) (onCpu clearFlagsOf (store8 (memEa m s) 0 s))

/-- TSTA: test A (R163). -/
def execTsta (s : State) : Host.Outcome State Fault Refusal :=
  finish (Instr.opcode .tsta) (onCpu (fun k => testFlagsOf k.a k) s)

/-- TSTB: test B (R163). -/
def execTstb (s : State) : Host.Outcome State Fault Refusal :=
  finish (Instr.opcode .tstb) (onCpu (fun k => testFlagsOf k.b k) s)

/-- TST: test a memory byte, read once (R163). -/
def execTst (m : MemAddr) (s : State) : Host.Outcome State Fault Refusal :=
  finish (Instr.opcode (.tst m)) (testByte (memEa m s) testFlagsOf s)

/-- DAA: decimal adjust A (R164). -/
def execDaa (s : State) : Host.Outcome State Fault Refusal :=
  finish (Instr.opcode .daa) (onCpu (daaAcc s.cfg) s)

/-- INX: increment index register, Z only (R165). -/
def execInx (s : State) : Host.Outcome State Fault Refusal :=
  finish (Instr.opcode .inx) (onCpu (fun k => { k with ix := k.ix + 1, z := k.ix + 1 == 0 }) s)

/-- DEX: decrement index register, Z only (R166). -/
def execDex (s : State) : Host.Outcome State Fault Refusal :=
  finish (Instr.opcode .dex) (onCpu (fun k => { k with ix := k.ix - 1, z := k.ix - 1 == 0 }) s)

/-- INS: increment stack pointer (R167). -/
def execIns (s : State) : Host.Outcome State Fault Refusal :=
  finish (Instr.opcode .ins) (onCpu (fun k => { k with sp := k.sp + 1 }) s)

/-- DES: decrement stack pointer (R168). -/
def execDes (s : State) : Host.Outcome State Fault Refusal :=
  finish (Instr.opcode .des) (onCpu (fun k => { k with sp := k.sp - 1 }) s)

/-- CPX: compare index register (R169). -/
def execCpx (m : Operand16) (s : State) : Host.Outcome State Fault Refusal :=
  finish (Instr.opcode (.cpx m)) (withOperand16 m (compareIx s.cfg) s)

/-- ADX: add to index register (R178). -/
def execAdx (m : AdxOperand) (s : State) : Host.Outcome State Fault Refusal :=
  finish (Instr.opcode (.adx m)) (let r := readAdxOperand m s; onCpu (addToIx r.1) r.2)

end Sys2Proof.Machine
end

