-- ==== Sys2Proof/Machine/Branch.lean ====
section
/-! DEFINITION. Branches, jumps, subroutine call and return (43_branch_jump R222 to R240). -/

namespace Sys2Proof.Machine

/-- `pc <- target` (R220). -/
def jumpTo (target : Word) (s : State) : State := onCpu (fun k => { k with pc := target }) s

/-- The shape of every branch: `if cond then pc <- (pc + sext_16(rel)) & 0xFFFF` (R221, R222 to R236). -/
def branchIf (cond : Bool) (rel : Byte) (s : State) : State :=
  if cond then jumpTo (relTarget s.cpu.pc rel) s else s

/-- `push16(pc); pc <- t` (R238, R239). -/
def callTo (target : Word) (s : State) : State := jumpTo target (push16 s.cpu.pc s)

/-- `pc <- pull16()` (R240). -/
def returnFromCall (s : State) : State :=
  let r := pull16 s
  jumpTo r.1 r.2

/-- BRA: branch always (R222). -/
def execBra (rel : Byte) (s : State) : Host.Outcome State Fault Refusal :=
  finish (Instr.opcode (.bra rel)) (branchIf (true) rel s)

/-- BHI: branch if higher (R223). -/
def execBhi (rel : Byte) (s : State) : Host.Outcome State Fault Refusal :=
  finish (Instr.opcode (.bhi rel)) (branchIf (!(s.cpu.c || s.cpu.z)) rel s)

/-- BLS: branch if lower or same (R224). -/
def execBls (rel : Byte) (s : State) : Host.Outcome State Fault Refusal :=
  finish (Instr.opcode (.bls rel)) (branchIf (s.cpu.c || s.cpu.z) rel s)

/-- BCC: branch if carry clear (R225). -/
def execBcc (rel : Byte) (s : State) : Host.Outcome State Fault Refusal :=
  finish (Instr.opcode (.bcc rel)) (branchIf (!s.cpu.c) rel s)

/-- BCS: branch if carry set (R226). -/
def execBcs (rel : Byte) (s : State) : Host.Outcome State Fault Refusal :=
  finish (Instr.opcode (.bcs rel)) (branchIf (s.cpu.c) rel s)

/-- BNE: branch if not equal (R227). -/
def execBne (rel : Byte) (s : State) : Host.Outcome State Fault Refusal :=
  finish (Instr.opcode (.bne rel)) (branchIf (!s.cpu.z) rel s)

/-- BEQ: branch if equal (R228). -/
def execBeq (rel : Byte) (s : State) : Host.Outcome State Fault Refusal :=
  finish (Instr.opcode (.beq rel)) (branchIf (s.cpu.z) rel s)

/-- BVC: branch if overflow clear (R229). -/
def execBvc (rel : Byte) (s : State) : Host.Outcome State Fault Refusal :=
  finish (Instr.opcode (.bvc rel)) (branchIf (!s.cpu.v) rel s)

/-- BVS: branch if overflow set (R230). -/
def execBvs (rel : Byte) (s : State) : Host.Outcome State Fault Refusal :=
  finish (Instr.opcode (.bvs rel)) (branchIf (s.cpu.v) rel s)

/-- BPL: branch if plus (R231). -/
def execBpl (rel : Byte) (s : State) : Host.Outcome State Fault Refusal :=
  finish (Instr.opcode (.bpl rel)) (branchIf (!s.cpu.n) rel s)

/-- BMI: branch if minus (R232). -/
def execBmi (rel : Byte) (s : State) : Host.Outcome State Fault Refusal :=
  finish (Instr.opcode (.bmi rel)) (branchIf (s.cpu.n) rel s)

/-- BGE: branch if greater or equal, signed (R233). -/
def execBge (rel : Byte) (s : State) : Host.Outcome State Fault Refusal :=
  finish (Instr.opcode (.bge rel)) (branchIf (s.cpu.n == s.cpu.v) rel s)

/-- BLT: branch if less than, signed (R234). -/
def execBlt (rel : Byte) (s : State) : Host.Outcome State Fault Refusal :=
  finish (Instr.opcode (.blt rel)) (branchIf (s.cpu.n != s.cpu.v) rel s)

/-- BGT: branch if greater than, signed (R235). -/
def execBgt (rel : Byte) (s : State) : Host.Outcome State Fault Refusal :=
  finish (Instr.opcode (.bgt rel)) (branchIf (!(s.cpu.z || s.cpu.n != s.cpu.v)) rel s)

/-- BLE: branch if less or equal, signed (R236). -/
def execBle (rel : Byte) (s : State) : Host.Outcome State Fault Refusal :=
  finish (Instr.opcode (.ble rel)) (branchIf (s.cpu.z || s.cpu.n != s.cpu.v) rel s)

/-- JMP: jump to the effective address (R237). -/
def execJmp (m : MemAddr) (s : State) : Host.Outcome State Fault Refusal :=
  finish (Instr.opcode (.jmp m)) (jumpTo (memEa m s) s)

/-- JSR: jump to subroutine; the target is computed before the push (R238). -/
def execJsr (m : MemAddr) (s : State) : Host.Outcome State Fault Refusal :=
  finish (Instr.opcode (.jsr m)) (callTo (memEa m s) s)

/-- BSR: branch to subroutine (R239). -/
def execBsr (rel : Byte) (s : State) : Host.Outcome State Fault Refusal :=
  finish (Instr.opcode (.bsr rel)) (callTo (relTarget s.cpu.pc rel) s)

/-- RTS: return from subroutine (R240). -/
def execRts (s : State) : Host.Outcome State Fault Refusal :=
  finish (Instr.opcode .rts) (returnFromCall s)

end Sys2Proof.Machine
end

