-- ==== Sys2Proof/Machine/LoadStore.lean ====
section
/-! DEFINITION. Loads, stores, transfers, stack moves (40_load_store_transfer R121 to R134). -/

namespace Sys2Proof.Machine

/-- `MemWrite(ea,1,ACC)`, then the flags of the stored byte (R122). -/
def storeAcc (acc : Acc) (ea : Word) (s : State) : State :=
  onCpu (setNZ8V0 (getAcc acc s.cpu)) (store8 ea (getAcc acc s.cpu) s)

/-- `ACC <- pull8()`; no flag is written (R134). -/
def pullAcc (acc : Acc) (s : State) : State :=
  let r := pull8 s
  onCpu (setAcc acc r.1) r.2

/-- LDAA: load accumulator (R121). -/
def execLdaa (m : Operand8) (s : State) : Host.Outcome State Fault Refusal :=
  finish (Instr.opcode (.ldaa m)) (withOperand8 m (loadAcc .a) s)

/-- LDAB: load accumulator (R121). -/
def execLdab (m : Operand8) (s : State) : Host.Outcome State Fault Refusal :=
  finish (Instr.opcode (.ldab m)) (withOperand8 m (loadAcc .b) s)

/-- STAA: store A: one write, no read (R122). -/
def execStaa (m : StoreAddr) (s : State) : Host.Outcome State Fault Refusal :=
  finish (Instr.opcode (.staa m)) (storeAcc .a (storeEa m s) s)

/-- STAB: store B: one write, no read (R122). -/
def execStab (m : StoreAddr) (s : State) : Host.Outcome State Fault Refusal :=
  finish (Instr.opcode (.stab m)) (storeAcc .b (storeEa m s) s)

/-- LDX: load index register (R123). -/
def execLdx (m : Operand16) (s : State) : Host.Outcome State Fault Refusal :=
  finish (Instr.opcode (.ldx m)) (withOperand16 m (fun v k => setNZ16V0 v { k with ix := v }) s)

/-- LDS: load stack pointer (R124). -/
def execLds (m : Operand16) (s : State) : Host.Outcome State Fault Refusal :=
  finish (Instr.opcode (.lds m)) (withOperand16 m (fun v k => setNZ16V0 v { k with sp := v }) s)

/-- STX: store index register (R125). -/
def execStx (m : StoreAddr) (s : State) : Host.Outcome State Fault Refusal :=
  finish (Instr.opcode (.stx m)) (onCpu (setNZ16V0 s.cpu.ix) (store16 (storeEa m s) s.cpu.ix s))

/-- STS: store stack pointer (R126). -/
def execSts (m : StoreAddr) (s : State) : Host.Outcome State Fault Refusal :=
  finish (Instr.opcode (.sts m)) (onCpu (setNZ16V0 s.cpu.sp) (store16 (storeEa m s) s.cpu.sp s))

/-- TAB: transfer A to B (R127). -/
def execTab (s : State) : Host.Outcome State Fault Refusal :=
  finish (Instr.opcode .tab) (onCpu (fun k => setNZ8V0 k.a { k with b := k.a }) s)

/-- TBA: transfer B to A (R128). -/
def execTba (s : State) : Host.Outcome State Fault Refusal :=
  finish (Instr.opcode .tba) (onCpu (fun k => setNZ8V0 k.b { k with a := k.b }) s)

/-- TAP: transfer A to the condition codes (R129). -/
def execTap (s : State) : Host.Outcome State Fault Refusal :=
  finish (Instr.opcode .tap) (onCpu (fun k => Cpu.setCcr k.a k) s)

/-- TPA: transfer the condition codes to A (R130). -/
def execTpa (s : State) : Host.Outcome State Fault Refusal :=
  finish (Instr.opcode .tpa) (onCpu (fun k => { k with a := k.ccr }) s)

/-- TSX: transfer stack pointer to index register, plus 1 (R131). -/
def execTsx (s : State) : Host.Outcome State Fault Refusal :=
  finish (Instr.opcode .tsx) (onCpu (fun k => { k with ix := k.sp + 1 }) s)

/-- TXS: transfer index register to stack pointer, minus 1 (R132). -/
def execTxs (s : State) : Host.Outcome State Fault Refusal :=
  finish (Instr.opcode .txs) (onCpu (fun k => { k with sp := k.ix - 1 }) s)

/-- PSHA: push A (R133). -/
def execPsha (s : State) : Host.Outcome State Fault Refusal :=
  finish (Instr.opcode .psha) (push8 s.cpu.a s)

/-- PSHB: push B (R133). -/
def execPshb (s : State) : Host.Outcome State Fault Refusal :=
  finish (Instr.opcode .pshb) (push8 s.cpu.b s)

/-- PULA: pull A (R134). -/
def execPula (s : State) : Host.Outcome State Fault Refusal :=
  finish (Instr.opcode .pula) (pullAcc .a s)

/-- PULB: pull B (R134). -/
def execPulb (s : State) : Host.Outcome State Fault Refusal :=
  finish (Instr.opcode .pulb) (pullAcc .b s)

end Sys2Proof.Machine
end

