-- ==== Sys2Proof/Machine/Logic.lean ====
section
/-! DEFINITION. Logic, shifts, rotates, memory-immediate logic (42_logic_shift R190 to R204). -/

namespace Sys2Proof.Machine

/-- ANDA: and memory into accumulator (R190). -/
def execAnda (m : Operand8) (s : State) : Host.Outcome State Fault Refusal :=
  finish (Instr.opcode (.anda m)) (withOperand8 m (andAcc .a) s)

/-- ANDB: and memory into accumulator (R190). -/
def execAndb (m : Operand8) (s : State) : Host.Outcome State Fault Refusal :=
  finish (Instr.opcode (.andb m)) (withOperand8 m (andAcc .b) s)

/-- BITA: bit test (R191). -/
def execBita (m : Operand8) (s : State) : Host.Outcome State Fault Refusal :=
  finish (Instr.opcode (.bita m)) (withOperand8 m (bitAcc .a) s)

/-- BITB: bit test (R191). -/
def execBitb (m : Operand8) (s : State) : Host.Outcome State Fault Refusal :=
  finish (Instr.opcode (.bitb m)) (withOperand8 m (bitAcc .b) s)

/-- ORAA: inclusive or memory into accumulator (R192). -/
def execOraa (m : Operand8) (s : State) : Host.Outcome State Fault Refusal :=
  finish (Instr.opcode (.oraa m)) (withOperand8 m (orAcc .a) s)

/-- ORAB: inclusive or memory into accumulator (R192). -/
def execOrab (m : Operand8) (s : State) : Host.Outcome State Fault Refusal :=
  finish (Instr.opcode (.orab m)) (withOperand8 m (orAcc .b) s)

/-- EORA: exclusive or memory into accumulator (R193). -/
def execEora (m : Operand8) (s : State) : Host.Outcome State Fault Refusal :=
  finish (Instr.opcode (.eora m)) (withOperand8 m (eorAcc .a) s)

/-- EORB: exclusive or memory into accumulator (R193). -/
def execEorb (m : Operand8) (s : State) : Host.Outcome State Fault Refusal :=
  finish (Instr.opcode (.eorb m)) (withOperand8 m (eorAcc .b) s)

/-- COMA: one's complement A (R194). -/
def execComa (s : State) : Host.Outcome State Fault Refusal :=
  finish (Instr.opcode .coma) (onCpu (modifyAcc .a comByte) s)

/-- COMB: one's complement B (R194). -/
def execComb (s : State) : Host.Outcome State Fault Refusal :=
  finish (Instr.opcode .comb) (onCpu (modifyAcc .b comByte) s)

/-- COM: one's complement a memory byte (R194). -/
def execCom (m : MemAddr) (s : State) : Host.Outcome State Fault Refusal :=
  finish (Instr.opcode (.com m)) (modifyByte (memEa m s) comByte s)

/-- ASLA: arithmetic shift left A (R196). -/
def execAsla (s : State) : Host.Outcome State Fault Refusal :=
  finish (Instr.opcode .asla) (onCpu (modifyAcc .a aslByte) s)

/-- ASLB: arithmetic shift left B (R196). -/
def execAslb (s : State) : Host.Outcome State Fault Refusal :=
  finish (Instr.opcode .aslb) (onCpu (modifyAcc .b aslByte) s)

/-- ASL: arithmetic shift left a memory byte (R196). -/
def execAsl (m : MemAddr) (s : State) : Host.Outcome State Fault Refusal :=
  finish (Instr.opcode (.asl m)) (modifyByte (memEa m s) aslByte s)

/-- ASRA: arithmetic shift right A (R197). -/
def execAsra (s : State) : Host.Outcome State Fault Refusal :=
  finish (Instr.opcode .asra) (onCpu (modifyAcc .a asrByte) s)

/-- ASRB: arithmetic shift right B (R197). -/
def execAsrb (s : State) : Host.Outcome State Fault Refusal :=
  finish (Instr.opcode .asrb) (onCpu (modifyAcc .b asrByte) s)

/-- ASR: arithmetic shift right a memory byte (R197). -/
def execAsr (m : MemAddr) (s : State) : Host.Outcome State Fault Refusal :=
  finish (Instr.opcode (.asr m)) (modifyByte (memEa m s) asrByte s)

/-- LSRA: logical shift right A (R198). -/
def execLsra (s : State) : Host.Outcome State Fault Refusal :=
  finish (Instr.opcode .lsra) (onCpu (modifyAcc .a lsrByte) s)

/-- LSRB: logical shift right B (R198). -/
def execLsrb (s : State) : Host.Outcome State Fault Refusal :=
  finish (Instr.opcode .lsrb) (onCpu (modifyAcc .b lsrByte) s)

/-- LSR: logical shift right a memory byte (R198). -/
def execLsr (m : MemAddr) (s : State) : Host.Outcome State Fault Refusal :=
  finish (Instr.opcode (.lsr m)) (modifyByte (memEa m s) lsrByte s)

/-- ROLA: rotate left through carry A (R199). -/
def execRola (s : State) : Host.Outcome State Fault Refusal :=
  finish (Instr.opcode .rola) (onCpu (modifyAcc .a rolByte) s)

/-- ROLB: rotate left through carry B (R199). -/
def execRolb (s : State) : Host.Outcome State Fault Refusal :=
  finish (Instr.opcode .rolb) (onCpu (modifyAcc .b rolByte) s)

/-- ROL: rotate left through carry a memory byte (R199). -/
def execRol (m : MemAddr) (s : State) : Host.Outcome State Fault Refusal :=
  finish (Instr.opcode (.rol m)) (modifyByte (memEa m s) rolByte s)

/-- RORA: rotate right through carry A (R200). -/
def execRora (s : State) : Host.Outcome State Fault Refusal :=
  finish (Instr.opcode .rora) (onCpu (modifyAcc .a rorByte) s)

/-- RORB: rotate right through carry B (R200). -/
def execRorb (s : State) : Host.Outcome State Fault Refusal :=
  finish (Instr.opcode .rorb) (onCpu (modifyAcc .b rorByte) s)

/-- ROR: rotate right through carry a memory byte (R200). -/
def execRor (m : MemAddr) (s : State) : Host.Outcome State Fault Refusal :=
  finish (Instr.opcode (.ror m)) (modifyByte (memEa m s) rorByte s)

/-- NIM: and immediate into memory (R201). -/
def execNim (imm off : Byte) (s : State) : Host.Outcome State Fault Refusal :=
  finish (Instr.opcode (.nim imm off))
    (modifyByte (eaIdx off s) (fun m => memImmResult s.cfg (m &&& imm)) s)

/-- OIM: or immediate into memory (R202). -/
def execOim (imm off : Byte) (s : State) : Host.Outcome State Fault Refusal :=
  finish (Instr.opcode (.oim imm off))
    (modifyByte (eaIdx off s) (fun m => memImmResult s.cfg (m ||| imm)) s)

/-- XIM: exclusive or immediate into memory (R203). -/
def execXim (imm off : Byte) (s : State) : Host.Outcome State Fault Refusal :=
  finish (Instr.opcode (.xim imm off))
    (modifyByte (eaIdx off s) (fun m => memImmResult s.cfg (m ^^^ imm)) s)

/-- TMM: test memory against an immediate mask, nothing written (R204). -/
def execTmm (imm off : Byte) (s : State) : Host.Outcome State Fault Refusal :=
  finish (Instr.opcode (.tmm imm off))
    (testByte (eaIdx off s) (fun m => setNZV (tmmFlags s.cfg m imm)) s)

end Sys2Proof.Machine
end

