-- ==== Sys2Proof/Machine/System.lean ====
section
/-! DEFINITION. Flag, system and no-op instructions (44_system R250 to R262). -/

namespace Sys2Proof.Machine

/-- NOP: no operation (R250). -/
def execNop (s : State) : Host.Outcome State Fault Refusal :=
  finish (Instr.opcode .nop) s

/-- CLC: clear carry (R251). -/
def execClc (s : State) : Host.Outcome State Fault Refusal :=
  finish (Instr.opcode .clc) (onCpu (fun k => { k with c := false }) s)

/-- SEC: set carry (R252). -/
def execSec (s : State) : Host.Outcome State Fault Refusal :=
  finish (Instr.opcode .sec) (onCpu (fun k => { k with c := true }) s)

/-- CLV: clear overflow (R253). -/
def execClv (s : State) : Host.Outcome State Fault Refusal :=
  finish (Instr.opcode .clv) (onCpu (fun k => { k with v := false }) s)

/-- SEV: set overflow (R254). -/
def execSev (s : State) : Host.Outcome State Fault Refusal :=
  finish (Instr.opcode .sev) (onCpu (fun k => { k with v := true }) s)

/-- CLI: clear interrupt mask (R255). -/
def execCli (s : State) : Host.Outcome State Fault Refusal :=
  finish (Instr.opcode .cli) (onCpu (fun k => { k with i := false }) s)

/-- SEI: set interrupt mask (R256). -/
def execSei (s : State) : Host.Outcome State Fault Refusal :=
  finish (Instr.opcode .sei) (onCpu (fun k => { k with i := true }) s)

/-- SWI: software interrupt: the push-and-vector sequence with the SWI vector (R258). -/
def execSwi (s : State) : Host.Outcome State Fault Refusal :=
  .next (enterThroughVector s.cfg.vecSwi (cyclesOf s.cfg (Instr.opcode .swi)) s)

/-- RTI: return from interrupt (R259). -/
def execRti (s : State) : Host.Outcome State Fault Refusal :=
  finish (Instr.opcode .rti) (pullAll s)

/-- WAI: wait for interrupt: nothing is pushed here (R260). -/
def execWai (s : State) : Host.Outcome State Fault Refusal :=
  finish (Instr.opcode .wai) { s with req := { s.req with waitActive := true } }

/-- An unrecognised opcode: "a 1-cycle no-op", whatever the cost table holds (R262). -/
def execUnrecognised (_op : Byte) (s : State) : Host.Outcome State Fault Refusal :=
  .next (addCost 1 s)

end Sys2Proof.Machine
end

