-- ==== Sys2Proof/Machine/Dispatch.lean ====
section
/-! DEFINITION. One arm per constructor of `Instr`, each a direct call of its meaning. -/

namespace Sys2Proof.Machine

def exec (i : Instr) (s : State) : Host.Outcome State Fault Refusal :=
  match i with
  -- Loads, stores, transfers, stack (40_load_store_transfer R121 to R134).
  | .ldaa m => Sys2Proof.Machine.execLdaa m s
  | .ldab m => Sys2Proof.Machine.execLdab m s
  | .staa m => Sys2Proof.Machine.execStaa m s
  | .stab m => Sys2Proof.Machine.execStab m s
  | .ldx m => Sys2Proof.Machine.execLdx m s
  | .lds m => Sys2Proof.Machine.execLds m s
  | .stx m => Sys2Proof.Machine.execStx m s
  | .sts m => Sys2Proof.Machine.execSts m s
  | .tab => Sys2Proof.Machine.execTab s
  | .tba => Sys2Proof.Machine.execTba s
  | .tap => Sys2Proof.Machine.execTap s
  | .tpa => Sys2Proof.Machine.execTpa s
  | .tsx => Sys2Proof.Machine.execTsx s
  | .txs => Sys2Proof.Machine.execTxs s
  | .psha => Sys2Proof.Machine.execPsha s
  | .pshb => Sys2Proof.Machine.execPshb s
  | .pula => Sys2Proof.Machine.execPula s
  | .pulb => Sys2Proof.Machine.execPulb s
  -- Arithmetic (41_arithmetic R151 to R169, R178).
  | .adda m => Sys2Proof.Machine.execAdda m s
  | .addb m => Sys2Proof.Machine.execAddb m s
  | .adca m => Sys2Proof.Machine.execAdca m s
  | .adcb m => Sys2Proof.Machine.execAdcb m s
  | .aba => Sys2Proof.Machine.execAba s
  | .suba m => Sys2Proof.Machine.execSuba m s
  | .subb m => Sys2Proof.Machine.execSubb m s
  | .sbca m => Sys2Proof.Machine.execSbca m s
  | .sbcb m => Sys2Proof.Machine.execSbcb m s
  | .sba => Sys2Proof.Machine.execSba s
  | .cmpa m => Sys2Proof.Machine.execCmpa m s
  | .cmpb m => Sys2Proof.Machine.execCmpb m s
  | .cba => Sys2Proof.Machine.execCba s
  | .nega => Sys2Proof.Machine.execNega s
  | .negb => Sys2Proof.Machine.execNegb s
  | .neg m => Sys2Proof.Machine.execNeg m s
  | .inca => Sys2Proof.Machine.execInca s
  | .incb => Sys2Proof.Machine.execIncb s
  | .inc m => Sys2Proof.Machine.execInc m s
  | .deca => Sys2Proof.Machine.execDeca s
  | .decb => Sys2Proof.Machine.execDecb s
  | .dec m => Sys2Proof.Machine.execDec m s
  | .clra => Sys2Proof.Machine.execClra s
  | .clrb => Sys2Proof.Machine.execClrb s
  | .clr m => Sys2Proof.Machine.execClr m s
  | .tsta => Sys2Proof.Machine.execTsta s
  | .tstb => Sys2Proof.Machine.execTstb s
  | .tst m => Sys2Proof.Machine.execTst m s
  | .daa => Sys2Proof.Machine.execDaa s
  | .inx => Sys2Proof.Machine.execInx s
  | .dex => Sys2Proof.Machine.execDex s
  | .ins => Sys2Proof.Machine.execIns s
  | .des => Sys2Proof.Machine.execDes s
  | .cpx m => Sys2Proof.Machine.execCpx m s
  | .adx m => Sys2Proof.Machine.execAdx m s
  -- Logic, shifts, memory-immediate (42_logic_shift R190 to R204).
  | .anda m => Sys2Proof.Machine.execAnda m s
  | .andb m => Sys2Proof.Machine.execAndb m s
  | .bita m => Sys2Proof.Machine.execBita m s
  | .bitb m => Sys2Proof.Machine.execBitb m s
  | .oraa m => Sys2Proof.Machine.execOraa m s
  | .orab m => Sys2Proof.Machine.execOrab m s
  | .eora m => Sys2Proof.Machine.execEora m s
  | .eorb m => Sys2Proof.Machine.execEorb m s
  | .coma => Sys2Proof.Machine.execComa s
  | .comb => Sys2Proof.Machine.execComb s
  | .com m => Sys2Proof.Machine.execCom m s
  | .asla => Sys2Proof.Machine.execAsla s
  | .aslb => Sys2Proof.Machine.execAslb s
  | .asl m => Sys2Proof.Machine.execAsl m s
  | .asra => Sys2Proof.Machine.execAsra s
  | .asrb => Sys2Proof.Machine.execAsrb s
  | .asr m => Sys2Proof.Machine.execAsr m s
  | .lsra => Sys2Proof.Machine.execLsra s
  | .lsrb => Sys2Proof.Machine.execLsrb s
  | .lsr m => Sys2Proof.Machine.execLsr m s
  | .rola => Sys2Proof.Machine.execRola s
  | .rolb => Sys2Proof.Machine.execRolb s
  | .rol m => Sys2Proof.Machine.execRol m s
  | .rora => Sys2Proof.Machine.execRora s
  | .rorb => Sys2Proof.Machine.execRorb s
  | .ror m => Sys2Proof.Machine.execRor m s
  | .nim imm off => Sys2Proof.Machine.execNim imm off s
  | .oim imm off => Sys2Proof.Machine.execOim imm off s
  | .xim imm off => Sys2Proof.Machine.execXim imm off s
  | .tmm imm off => Sys2Proof.Machine.execTmm imm off s
  -- Branches, jumps, calls (43_branch_jump R222 to R240).
  | .bra rel => Sys2Proof.Machine.execBra rel s
  | .bhi rel => Sys2Proof.Machine.execBhi rel s
  | .bls rel => Sys2Proof.Machine.execBls rel s
  | .bcc rel => Sys2Proof.Machine.execBcc rel s
  | .bcs rel => Sys2Proof.Machine.execBcs rel s
  | .bne rel => Sys2Proof.Machine.execBne rel s
  | .beq rel => Sys2Proof.Machine.execBeq rel s
  | .bvc rel => Sys2Proof.Machine.execBvc rel s
  | .bvs rel => Sys2Proof.Machine.execBvs rel s
  | .bpl rel => Sys2Proof.Machine.execBpl rel s
  | .bmi rel => Sys2Proof.Machine.execBmi rel s
  | .bge rel => Sys2Proof.Machine.execBge rel s
  | .blt rel => Sys2Proof.Machine.execBlt rel s
  | .bgt rel => Sys2Proof.Machine.execBgt rel s
  | .ble rel => Sys2Proof.Machine.execBle rel s
  | .jmp m => Sys2Proof.Machine.execJmp m s
  | .jsr m => Sys2Proof.Machine.execJsr m s
  | .bsr rel => Sys2Proof.Machine.execBsr rel s
  | .rts => Sys2Proof.Machine.execRts s
  -- System and unrecognised opcodes (44_system R250 to R262).
  | .nop => Sys2Proof.Machine.execNop s
  | .clc => Sys2Proof.Machine.execClc s
  | .sec => Sys2Proof.Machine.execSec s
  | .clv => Sys2Proof.Machine.execClv s
  | .sev => Sys2Proof.Machine.execSev s
  | .cli => Sys2Proof.Machine.execCli s
  | .sei => Sys2Proof.Machine.execSei s
  | .swi => Sys2Proof.Machine.execSwi s
  | .rti => Sys2Proof.Machine.execRti s
  | .wai => Sys2Proof.Machine.execWai s
  | .unrecognised op => Sys2Proof.Machine.execUnrecognised op s

end Sys2Proof.Machine
end

