-- ==== Sys2Proof/Machine/Fetch.lean ====
section
/-! DEFINITION. Fetching an instruction (30_encoding R100): each byte is one `MemRead` at `pc`, with the
side effects of a read where the VIA owns the address (20_memory R92), and `pc` wraps between bytes. -/

namespace Sys2Proof.Machine

/-- `fetch8()` (00_scope R10). -/
def fetch8 (s : State) : Byte × State :=
  let r := load8 s.cpu.pc s
  (r.1, onCpu (fun k => { k with pc := k.pc + 1 }) r.2)

/-- `n` calls of `fetch8()`, in ascending address order. -/
def fetchMany : Nat → State → List Byte × State
  | 0, s => ([], s)
  | n + 1, s =>
    let r := fetch8 s
    let rest := fetchMany n r.2
    (r.1 :: rest.1, rest.2)

/-- The bytes of the instruction at `pc`: the opcode byte, then as many operand bytes as it fixes
(R100, R112). -/
def fetchBytes (s : State) : List Byte × State :=
  let op := fetch8 s
  let rest := fetchMany (lengthOf s.cfg.memImm op.1 - 1) op.2
  (op.1 :: rest.1, rest.2)

/-- The instruction at `pc`, and the state after its fetch, whose `pc` is the address of the next one. -/
def fetchInstr (s : State) : Instr × State :=
  let b := fetchBytes s
  (instrOf s.cfg.memImm (b.1.getD 0 0) (b.1.getD 1 0) (b.1.getD 2 0), b.2)

-- Placing an instruction where the next step fetches.

/-- Whether the three bytes from an address are bytes of RAM or ROM. -/
def fetchable (s : State) (a : Word) : Bool :=
  [a, a + 1, a + 2].all fun b => owner s b == .ram || owner s b == .rom

/-- Where the instruction is placed: `pc` if its bytes are memory, else the start of a region whose bytes
are. -/
def fetchPlace (s : State) : Word :=
  ((s.cpu.pc :: s.cfg.map.map fun r => BitVec.ofNat 16 r.first).find? (fetchable s)).getD s.cpu.pc

/-- Places bytes in memory from an address on, as a loader does (ROM bytes too). -/
def placeBytes : List Byte → Word → Memory → Memory
  | [], _, m => m
  | b :: rest, a, m => placeBytes rest (a + 1) (writeByte m a.toNat b)

/-- No latch stands between the boundary and the next fetch (60_exceptions R400); an IRQ that the mask
already holds back stays. -/
def clearedRequests (k : Cpu) (r : Requests) : Requests :=
  { resetPending := false, nmiPending := false, irqPending := r.irqPending && k.i,
    haltActive := false, waitActive := false }

/-- The state whose next step fetches the given bytes. -/
def placeInstruction (bytes : List Byte) (s : State) : State :=
  let a := fetchPlace s
  { s with
    cpu := { s.cpu with pc := a }
    req := clearedRequests s.cpu s.req
    mem := placeBytes bytes a s.mem }

end Sys2Proof.Machine
end

