-- ==== Sys2Proof/Machine/Boundary.lean ====
section
/-! DEFINITION. The CPU step at an instruction boundary (60_exceptions R400): reset, halt, wait, NMI, IRQ,
or one instruction. -/

namespace Sys2Proof.Machine

/-- The six arms of R400. -/
inductive BoundaryArm where
  | reset | halted | waiting | nmi | irq | instruction
  deriving DecidableEq, Repr

/-- "The first arm whose condition holds" (R400). -/
def boundaryArm (s : State) : BoundaryArm :=
  if s.req.resetPending then .reset
  else if s.req.haltActive then .halted
  else if s.req.waitActive then .waiting
  else if s.req.nmiPending then .nmi
  else if s.req.irqPending && !s.cpu.i then .irq
  else .instruction

/-- `interruptEntry(vec)` (R404). -/
def interruptEntry (vec : Word) (s : State) : State :=
  enterThroughVector vec s.cfg.intEntryCycles s

/-- Taking a reset (R401): nothing is pushed, the other registers and `haltActive` keep their values, and
the clock is 0. -/
def takeReset (s : State) : State :=
  let s1 : State :=
    { s with
      cpu := { s.cpu with i := true }
      req := { s.req with resetPending := false, waitActive := false, nmiPending := false } }
  let w := load16 s.cfg.vecReset s1
  { w.2 with cpu := { w.2.cpu with pc := w.1 }, clock := 0 }

/-- Taking an NMI: the request is consumed (R406). -/
def takeNmi (s : State) : State :=
  interruptEntry s.cfg.vecNmi { s with req := { s.req with nmiPending := false } }

/-- Taking an IRQ: `irqPending` is the level of the line and stays (R403). -/
def takeIrq (s : State) : State := interruptEntry s.cfg.vecIrq s

/-- Leaves the wait state. -/
def leaveWait (s : State) : State := { s with req := { s.req with waitActive := false } }

/-- The wait step: an NMI, an unmasked IRQ, or one idle clock (R402). -/
def waitStep (s : State) : State :=
  if s.req.nmiPending then takeNmi (leaveWait s)
  else if s.req.irqPending && !s.cpu.i then takeIrq (leaveWait s)
  else addCost 1 s

/-- One CPU step (R400). A halted step changes nothing (R414). -/
def cpuStep (s : State) : Host.Outcome State Fault Refusal :=
  match boundaryArm s with
  | .reset => .next (takeReset s)
  | .halted => .next s
  | .waiting => .next (waitStep s)
  | .nmi => .next (takeNmi s)
  | .irq => .next (takeIrq s)
  | .instruction =>
    let f := fetchInstr s
    exec f.1 f.2

/-- The ticks a CPU step from `s` to `t` is followed by: one for each clock it added, none after a reset
or a halted step (70_reset_and_hazards R452). -/
def afterTicks (s t : State) : State := ticks (t.clock - s.clock) t

end Sys2Proof.Machine
end

