-- ==== Sys2Proof/Machine/Step.lean ====
section
/-! DEFINITION. One step of the machine: a CPU step followed by its ticks (70_reset_and_hazards R453).
The environment's steps are in Machine/Environment.lean. -/

namespace Sys2Proof.Machine

/-- A CPU step, then its ticks, before the next boundary (R452). -/
def step (s : State) : Host.Outcome State Fault Refusal :=
  match cpuStep s with
  | .next t => .next (afterTicks s t)
  | .fault r => .fault r
  | .refused r => .refused r

/-- `s` with an instruction, whose bits are `w`, stored where `step` fetches next (log 6). -/
def State.withFetchWord (s : State) (nbits w : Nat) : State :=
  placeInstruction (tableBytes nbits w) s

end Sys2Proof.Machine
end

