-- ==== Sys2Proof/Machine/Environment.lean ====
section
/-! DEFINITION. What the environment may do between two steps: requests (60_exceptions R428), the Reset
event (70_reset_and_hazards R450), control-line and port pin events (46_via_registers R331, R334). -/

namespace Sys2Proof.Machine

/-- The environment's calls (R428, 00_scope R6). `irq()` is none of them: R330 alone makes it, `cpuIrq`. -/
inductive EnvCall where
  /-- `reset()` of the CPU alone (R428). -/
  | cpuReset
  /-- The Reset event: `reset()` on the CPU and on every device (R450). -/
  | resetEvent
  | nmi
  | halt
  | clearHalt
  | setPA (level : Byte)
  | setPB (level : Byte)
  | setCA1 (level : Bool)
  | setCA2 (level : Bool)
  | setCB1 (level : Bool)
  | setCB2 (level : Bool)
  deriving DecidableEq, Repr

/-- An edge is active for polarity bit p when the level changes and the new level is p (R331). -/
def activeEdge (polarity old new : Bool) : Bool := (old != new) && (new == polarity)

/-- The CPU's `reset()`: the request is latched and taken at the next boundary (R428, R401). -/
def requestReset (s : State) : State := { s with req := { s.req with resetPending := true } }

/-- `setCA1(new)` (R331). -/
def setCA1 (new : Bool) (s : State) : State :=
  let s1 := mapVia (fun v => { v with ca1In := new }) s
  if activeEdge (s.via.pcr.getLsbD 0) s.via.ca1In new then
    let latch := fun (v : Via) => if paLatch v.acr then { v with ira := v.paIn } else v
    let hand := fun (v : Via) => if ca2Mode v.pcr = .handshake then { v with ca2Out := true } else v
    mapVia hand (setFlag .ca1 (mapVia latch s1))
  else s1

/-- `setCA2(new)`: the input modes only (R331). -/
def setCA2 (new : Bool) (s : State) : State :=
  let s1 := mapVia (fun v => { v with ca2In := new }) s
  if !s.via.pcr.getLsbD 3 && activeEdge (s.via.pcr.getLsbD 2) s.via.ca2In new then
    setFlag .ca2 s1
  else s1

/-- `setCB1(new)`: the edge, then the shift clock of the CB1 modes, at either change (R331, R353). -/
def setCB1 (new : Bool) (s : State) : State :=
  let s1 := mapVia (fun v => { v with cb1In := new }) s
  let s2 :=
    if activeEdge (s.via.pcr.getLsbD 4) s.via.cb1In new then
      let latch := fun (v : Via) => if pbLatch v.acr then { v with irb := v.pbIn } else v
      let hand := fun (v : Via) => if cb2Mode v.pcr = .handshake then { v with cb2Out := true } else v
      mapVia hand (setFlag .cb1 (mapVia latch s1))
    else s1
  if s.via.cb1In != new && srClockOf (srModeBits s2.via.acr) == .cb1 then srStep s2 else s2

/-- `setCB2(new)`: the input modes only (R331). -/
def setCB2 (new : Bool) (s : State) : State :=
  let s1 := mapVia (fun v => { v with cb2In := new }) s
  if !s.via.pcr.getLsbD 7 && activeEdge (s.via.pcr.getLsbD 6) s.via.cb2In new then
    setFlag .cb2 s1
  else s1

/-- One environment step (R428). -/
def envStep (e : EnvCall) (s : State) : State :=
  match e with
  | .cpuReset => requestReset s
  | .resetEvent => viaReset (requestReset s)
  | .nmi => { s with req := { s.req with nmiPending := true } }
  | .halt => { s with req := { s.req with haltActive := true } }
  | .clearHalt => { s with req := { s.req with haltActive := false } }
  | .setPA level => mapVia (fun v => { v with paIn := level }) s
  | .setPB level => mapVia (fun v => { v with pbIn := level }) s
  | .setCA1 level => setCA1 level s
  | .setCA2 level => setCA2 level s
  | .setCB1 level => setCB1 level s
  | .setCB2 level => setCB2 level s

end Sys2Proof.Machine
end

