-- ==== Sys2Proof/Machine/Timeline.lean ====
section
/-! DEFINITION. The timeline of environment steps and CPU steps (70_reset_and_hazards R453), and the
host's batch call `execute(target)` (60_exceptions R427). -/

namespace Sys2Proof.Machine

/-- "One machine step = choose: an environment step, or a CPU step followed by its n ticks" (R453). -/
inductive MachineEvent where
  | env (e : EnvCall)
  | cpu
  deriving DecidableEq, Repr

/-- The machine along a sequence of events; deterministic given the sequence (R453). -/
def timeline : List MachineEvent → State → Host.Outcome State Fault Refusal
  | [], s => .next s
  | .env e :: rest, s => timeline rest (envStep e s)
  | .cpu :: rest, s =>
    match step s with
    | .next t => timeline rest t
    | .fault r => .fault r
    | .refused r => .refused r

/-- How a call of `execute(target)` ends. -/
inductive BatchResult where
  /-- It returned this overrun, in this state. -/
  | returned (overrun : Nat) (s : State)
  /-- The bound on its steps ran out first (log 15). -/
  | unfinished (s : State)
  | fault (r : Fault)
  | refused (r : Refusal)
  deriving DecidableEq, Repr

/-- The loop of R427 from the clock value `start`, bounded by a number of steps. -/
def executeLoop : Nat → Nat → Nat → State → BatchResult
  | 0, start, target, s =>
    if s.clock - start < target then .unfinished s else .returned (s.clock - start - target) s
  | fuel + 1, start, target, s =>
    if s.clock - start < target then
      match step s with
      | .fault r => .fault r
      | .refused r => .refused r
      | .next t =>
        if boundaryArm s = .reset ∨ boundaryArm s = .halted then .returned 0 t
        else executeLoop fuel start target t
    else .returned (s.clock - start - target) s

/-- `execute(target_clocks)` (R427). Every step that neither takes a reset nor is halted costs at least
one clock under the default costs, so `target` steps are enough. -/
def executeBatch (target : Nat) (s : State) : BatchResult := executeLoop target s.clock target s

end Sys2Proof.Machine
end

