-- ==== Sys2Proof/Safety.lean ====
section
/-! DEFINITION. The terms the statements use: good states, safe runs, frames, and the bytes an instruction
stores to. -/

namespace Sys2Proof.Machine

/-- The invariants of 10_state R46 (a) to (c), with what makes (c) inductive: an active shift register has
done fewer than eight transfers (47_via_tick R352, R355). R46 (d) holds by the width of `acr`. -/
abbrev ViaInvariant (s : State) : Prop :=
  s.via.irqLine = s.via.composite ∧
  s.req.irqPending = s.via.irqLine ∧
  s.via.srCount ≤ 8 ∧
  (s.via.srActive = true → s.via.srCount < 8)

/-- A good state: the VIA invariants, and memory in its canonical form. -/
abbrev Good (s : State) : Prop := ViaInvariant s ∧ Memory.wf s.mem = true

/-- A safe step answers a next state: neither a fault nor a refusal (60_exceptions R410). -/
abbrev StepsSafely (s : State) : Prop := ∃ t, step s = .next t

/-- `t` differs from `s` at most in the VIA record and in the level of `irqPending`, which the VIA drives
(46_via_registers R330): what a VIA access, a read of any address, and a tick may change. -/
abbrev ViaOnly (s t : State) : Prop :=
  t = { s with via := t.via, req := { s.req with irqPending := t.req.irqPending } }

/-- The state when an instruction `i` completes: `s1`, which its memory accesses left, with the CPU record
`k` and the cost of `i` added (30_encoding R108). -/
def completed (i : Instr) (s1 : State) (k : Cpu) : State :=
  { s1 with cpu := k, clock := s1.clock + cyclesOf s1.cfg i.opcode }

/-- The byte a read returns at an address that the VIA does not own (20_memory R72, R77). -/
def plainByte (s : State) (a : Word) : Byte :=
  match owner s a with
  | .ram | .rom => readByte s.mem a.toNat
  | .via | .stub => stubByte s.cfg a

/-- The word at an address, high byte first (20_memory R84). -/
def plainWord (s : State) (a : Word) : Word := joinBytes (plainByte s a) (plainByte s (a + 1))

/-- Every one of `n` bytes from an address down is RAM: what a push of `n` bytes at SP `a` needs. -/
def ramDown (s : State) (a : Word) (n : Nat) : Prop :=
  ∀ k < n, owner s (a - BitVec.ofNat 16 k) = .ram

/-- The addresses an instruction stores to, by the operations its meaning computes them with: stores, the
memory read-modify-writes and CLR, pushes, calls, the frame of SWI. Empty for every other instruction. -/
def storedAddresses (i : Instr) (s : State) : List Word :=
  match i with
  | .staa m | .stab m => [storeEa m s]
  | .stx m | .sts m => [storeEa m s, storeEa m s + 1]
  | .psha | .pshb => [s.cpu.sp]
  | .neg m | .inc m | .dec m | .clr m | .com m | .asl m | .asr m | .lsr m | .rol m | .ror m => [memEa m s]
  | .nim _ off | .oim _ off | .xim _ off => [eaIdx off s]
  | .jsr _ | .bsr _ => [s.cpu.sp, s.cpu.sp - 1]
  | .swi =>
    [s.cpu.sp, s.cpu.sp - 1, s.cpu.sp - 2, s.cpu.sp - 3, s.cpu.sp - 4, s.cpu.sp - 5, s.cpu.sp - 6]
  | .ldaa _ | .ldab _ | .ldx _ | .lds _ | .tab | .tba | .tap | .tpa | .tsx | .txs | .pula | .pulb
  | .adda _ | .addb _ | .adca _ | .adcb _ | .aba | .suba _ | .subb _ | .sbca _ | .sbcb _ | .sba
  | .cmpa _ | .cmpb _ | .cba | .nega | .negb | .inca | .incb | .deca | .decb | .clra | .clrb
  | .tsta | .tstb | .tst _ | .daa | .inx | .dex | .ins | .des | .cpx _ | .adx _
  | .anda _ | .andb _ | .bita _ | .bitb _ | .oraa _ | .orab _ | .eora _ | .eorb _ | .coma | .comb
  | .asla | .aslb | .asra | .asrb | .lsra | .lsrb | .rola | .rolb | .rora | .rorb | .tmm _ _
  | .bra _ | .bhi _ | .bls _ | .bcc _ | .bcs _ | .bne _ | .beq _ | .bvc _ | .bvs _ | .bpl _
  | .bmi _ | .bge _ | .blt _ | .bgt _ | .ble _ | .jmp _ | .rts
  | .nop | .clc | .sec | .clv | .sev | .cli | .sei | .rti | .wai | .unrecognised _ => []

-- The vocabulary of the per-instruction statements. It says with signed and unsigned numbers what
-- Machine/Flags.lean computes with bits (41_arithmetic R150).

/-- N of an 8-bit result: a negative two's complement number. -/
def isNeg8 (r : Byte) : Bool := decide (r.toInt < 0)

/-- N of a 16-bit result. -/
def isNeg16 (r : Word) : Bool := decide (r.toInt < 0)

/-- V of an 8-bit result: the exact signed result is no 8-bit two's complement number. -/
def overflow8 (x : Int) : Bool := decide (x < -128 ∨ 127 < x)

/-- V of a 16-bit result. -/
def overflow16 (x : Int) : Bool := decide (x < -32768 ∨ 32767 < x)

/-- N and Z of a byte, and a given V. -/
def withNZV8 (r : Byte) (v : Bool) (k : Cpu) : Cpu := { k with n := isNeg8 r, z := decide (r = 0), v := v }

/-- N and Z of a word, and a given V. -/
def withNZV16 (r : Word) (v : Bool) (k : Cpu) : Cpu := { k with n := isNeg16 r, z := decide (r = 0), v := v }

/-- The 8-bit sum of two bytes and a carry, with H, N, Z, V and C. -/
def sum8 (x y : Byte) (carry : Bool) (k : Cpu) : Byte × Cpu :=
  let r := BitVec.ofNat 8 (x.toNat + y.toNat + bitNat carry)
  (r, withNZV8 r (overflow8 (x.toInt + y.toInt + bitNat carry))
    { k with
      h := decide (16 ≤ x.toNat % 16 + y.toNat % 16 + bitNat carry)
      c := decide (256 ≤ x.toNat + y.toNat + bitNat carry) })

/-- The 8-bit difference of two bytes and a borrow, with N, Z, V and C. -/
def difference8 (x y : Byte) (borrow : Bool) (k : Cpu) : Byte × Cpu :=
  let r := BitVec.ofInt 8 (x.toInt - y.toInt - bitNat borrow)
  (r, withNZV8 r (overflow8 (x.toInt - y.toInt - bitNat borrow))
    { k with c := decide (x.toNat < y.toNat + bitNat borrow) })

/-- A byte shifted by one place, with the bit shifted out in C and V the exclusive or of N and C. -/
def shifted8 (r : Byte) (out : Bool) (k : Cpu) : Byte × Cpu :=
  (r, withNZV8 r (isNeg8 r != out) { k with c := out })

/-- The rule of an instruction pair on accumulator A or B with an operand M: M is read, `f` gives the
accumulator and the flags, and nothing else changes. -/
def AccumulatorRule (onA onB : Operand8 → Instr) (f : Byte → Byte → Cpu → Byte × Cpu) : Prop :=
  ∀ (m : Operand8) (s : State),
    let r := readOperand8 m s
    let x := f s.cpu.a r.1 s.cpu
    let y := f s.cpu.b r.1 s.cpu
    exec (onA m) s = .next (completed (onA m) r.2 { x.2 with a := x.1 }) ∧
    exec (onB m) s = .next (completed (onB m) r.2 { y.2 with b := y.1 })

/-- The rule of an instruction on the operand T, accumulator A or B, or a memory byte, which is read once and
written once. -/
def OneOperandRule (onA onB : Instr) (onM : MemAddr → Instr) (f : Byte → Cpu → Byte × Cpu) : Prop :=
  ∀ s : State,
    exec onA s = .next (completed onA s { (f s.cpu.a s.cpu).2 with a := (f s.cpu.a s.cpu).1 }) ∧
    exec onB s = .next (completed onB s { (f s.cpu.b s.cpu).2 with b := (f s.cpu.b s.cpu).1 }) ∧
    ∀ m : MemAddr,
      let d := load8 (memEa m s) s
      let x := f d.1 s.cpu
      exec (onM m) s = .next (completed (onM m) (store8 (memEa m s) x.1 d.2) x.2)

/-- The opcode byte of an instruction and its cost by default (30_encoding R109). -/
def RowIs (i : Instr) (op : Byte) (cycles : Nat) : Prop :=
  i.opcode = op ∧ cyclesOf defaultConfig op = cycles

/-- The four rows of an accumulator instruction: "IMM 2, DIR 3, IDX 5, EXT 4" (30_encoding R108). -/
def AccRows (i : Operand8 → Instr) (imm dir idx ext : Byte) : Prop :=
  ∀ (v : Byte) (a : Word),
    RowIs (i (.imm v)) imm 2 ∧ RowIs (i (.dir v)) dir 3 ∧ RowIs (i (.idx v)) idx 5 ∧ RowIs (i (.ext a)) ext 4

/-- The four rows of LDX, LDS, CPX. -/
def WordRows (i : Operand16 → Instr) (imm dir idx ext : Byte) : Prop :=
  ∀ (v : Byte) (a : Word),
    RowIs (i (.imm a)) imm 3 ∧ RowIs (i (.dir v)) dir 4 ∧ RowIs (i (.idx v)) idx 6 ∧ RowIs (i (.ext a)) ext 5

/-- The three rows of a store, from the cost of its DIR form. -/
def StoreRows (i : StoreAddr → Instr) (dir idx ext : Byte) (cycles : Nat) : Prop :=
  ∀ (v : Byte) (a : Word),
    RowIs (i (.dir v)) dir cycles ∧ RowIs (i (.idx v)) idx (cycles + 2) ∧ RowIs (i (.ext a)) ext (cycles + 1)

/-- The two rows of an instruction with the forms IDX and EXT. -/
def MemRows (i : MemAddr → Instr) (idx ext : Byte) (idxCycles extCycles : Nat) : Prop :=
  ∀ (v : Byte) (a : Word), RowIs (i (.idx v)) idx idxCycles ∧ RowIs (i (.ext a)) ext extCycles

/-- The rows of an instruction on T: 2 cycles on an accumulator, 7 indexed, 6 extended. -/
def OneOperandRows (onA onB : Instr) (onM : MemAddr → Instr) (a b idx ext : Byte) : Prop :=
  RowIs onA a 2 ∧ RowIs onB b 2 ∧ MemRows onM idx ext 7 6

-- Sequences of accesses.

/-- `store8` at each address with its byte, in order. -/
def storeRun : List (Word × Byte) → State → State
  | [], s => s
  | (a, v) :: rest, s => storeRun rest (store8 a v s)

/-- `load8` at each address, in order. -/
def loadRun : List Word → State → List Byte × State
  | [], s => ([], s)
  | a :: rest, s =>
    let r := load8 a s
    let q := loadRun rest r.2
    (r.1 :: q.1, q.2)

/-- The seven bytes of an interrupt frame at their addresses, in the order they are written
(60_exceptions R404, 44_system R258). -/
def interruptFrame (k : Cpu) : List (Word × Byte) :=
  [(k.sp, loByte k.pc), (k.sp - 1, hiByte k.pc), (k.sp - 2, loByte k.ix), (k.sp - 3, hiByte k.ix),
   (k.sp - 4, k.a), (k.sp - 5, k.b), (k.sp - 6, k.ccr)]

/-- The state after the push-and-vector sequence with a vector and a cost: the frame written, SP lower by 7,
I set, the word at the vector in pc. -/
def entered (vec : Word) (n : Nat) (s : State) : State :=
  let t := storeRun (interruptFrame s.cpu) s
  let w := load16 vec t
  { w.2 with cpu := { s.cpu with sp := s.cpu.sp - 7, i := true, pc := w.1 }, clock := s.clock + n }

/-- A branch whose condition is `cond`: to the relative target or on to the next instruction, no other
register and no flag changed (43_branch_jump R221). -/
def BranchRule (i : Byte → Instr) (op : Byte) (cond : Cpu → Prop) : Prop :=
  (∀ rel : Byte, RowIs (i rel) op 4) ∧
  ∀ (rel : Byte) (s : State),
    (cond s.cpu → exec (i rel) s = .next (completed (i rel) s { s.cpu with pc := relTarget s.cpu.pc rel })) ∧
    (¬cond s.cpu → exec (i rel) s = .next (completed (i rel) s s.cpu))

/-- A timeline of `k` CPU steps. -/
def cpuSteps (k : Nat) : List MachineEvent := List.replicate k .cpu

/-- One bit of an externally clocked transfer: CB1 changes, the environment sets CB2, CB1 changes back. -/
def serialBit (b : Bool) (s : State) : State :=
  setCB1 s.via.cb1In (setCB2 b (setCB1 (!s.via.cb1In) s))

-- The clocking of the shift register, with numbers for what Machine/ViaTick.lean computes with bits.

/-- Timer 2 counts in the next tick: a falling edge of port B bit 6 in pulse mode, else every tick but the
grace tick (47_via_tick R344, R345). -/
def timer2Counts (v : Via) : Bool :=
  let level := if v.ddrb.getLsbD 6 then v.orb.getLsbD 6 else v.pbIn.getLsbD 6
  if v.acr.getLsbD 5 then v.pb6Prev && !level else !v.t2JustLoaded

/-- `t2Expired` of the next tick: a count at 0, armed or not (R346). -/
def timer2Expires (v : Via) : Bool := timer2Counts v && v.t2c == 0

/-- The shift-register mode `ACR[4:2]` as a number (R350). -/
def srMode (v : Via) : Nat := v.acr.toNat / 4 % 8

/-- The next tick clocks the shift register: in modes 0b010 and 0b110, and at a timer 2 expiry in modes 0b001,
0b100 and 0b101 (R351). -/
def tickClocksSr (v : Via) : Bool :=
  [2, 6].contains (srMode v) || [1, 4, 5].contains (srMode v) && timer2Expires v

/-- The chip generates the shift clock: modes 0b001, 0b010, 0b100, 0b101, 0b110 (R350). -/
def srClockOut (v : Via) : Bool := [1, 2, 4, 5, 6].contains (srMode v)

/-- The state of the shift register and of the two lines it drives. -/
structure Shifter where
  sr : Byte
  count : Nat
  phase : SrPhase
  active : Bool
  cb1Out : Bool
  cb2Out : Bool
  deriving DecidableEq, Repr

/-- The shifter of a VIA record. -/
def Via.shifter (v : Via) : Shifter := ⟨v.sr, v.srCount, v.srPhase, v.srActive, v.cb1Out, v.cb2Out⟩

/-- The eighth shift phase is next (R352, R355). -/
def phaseCompletes (v : Via) : Bool := v.srActive && v.srPhase == .shift && v.srCount == 7

/-- One phase of an active shift register (R352, R355): notify lowers a generated clock and, shifting out (modes
0b100 to 0b111), presents bit 7 on CB2; shift raises the clock and doubles the register, taking in bit 7 (out) or
the CB2 input (in), and the eighth halts. Nothing happens while it is halted. -/
def onePhase (v : Via) : Via :=
  let out := decide (4 ≤ srMode v)
  match v.srActive, v.srPhase with
  | false, _ => v
  | true, .notify =>
    { v with
      cb1Out := v.cb1Out && !srClockOut v
      cb2Out := if out then decide (128 ≤ v.sr.toNat) else v.cb2Out
      srPhase := .shift }
  | true, .shift =>
    { v with
      cb1Out := v.cb1Out || srClockOut v
      sr := BitVec.ofNat 8 (v.sr.toNat * 2 + bitNat (if out then decide (128 ≤ v.sr.toNat) else v.cb2In))
      srCount := v.srCount + 1
      srPhase := .notify
      srActive := !phaseCompletes v }

/-- The byte of a packed two-digit decimal number. -/
def packedBcd (n : Nat) : Byte := BitVec.ofNat 8 (n / 10 * 16 + n % 10)

-- Register frames.

/-- The fields of the CPU record. -/
inductive CpuField where
  | a | b | ix | sp | pc | h | i | n | z | v | c
  deriving DecidableEq, Repr

/-- The value of a field, as a number. -/
def Cpu.field (k : Cpu) : CpuField → Nat
  | .a => k.a.toNat
  | .b => k.b.toNat
  | .ix => k.ix.toNat
  | .sp => k.sp.toNat
  | .pc => k.pc.toNat
  | .h => bitNat k.h
  | .i => bitNat k.i
  | .n => bitNat k.n
  | .z => bitNat k.z
  | .v => bitNat k.v
  | .c => bitNat k.c

/-- The registers and flags the rule of an instruction names as written (files 40 to 44). -/
def destinations : Instr → List CpuField
  | .ldaa _ | .tba | .inca | .deca | .anda _ | .oraa _ | .eora _ => [.a, .n, .z, .v]
  | .ldab _ | .tab | .incb | .decb | .andb _ | .orab _ | .eorb _ => [.b, .n, .z, .v]
  | .staa _ | .stab _ | .stx _ | .sts _ | .inc _ | .dec _ | .cpx _ | .bita _ | .bitb _ | .nim _ _
  | .oim _ _ | .xim _ _ | .tmm _ _ => [.n, .z, .v]
  | .ldx _ => [.ix, .n, .z, .v]
  | .lds _ => [.sp, .n, .z, .v]
  | .tap => [.h, .i, .n, .z, .v, .c]
  | .tpa => [.a]
  | .tsx => [.ix]
  | .txs | .psha | .pshb | .ins | .des => [.sp]
  | .pula => [.a, .sp]
  | .pulb => [.b, .sp]
  | .adda _ | .adca _ | .aba => [.a, .h, .n, .z, .v, .c]
  | .addb _ | .adcb _ => [.b, .h, .n, .z, .v, .c]
  | .suba _ | .sbca _ | .sba | .nega | .clra | .daa | .coma | .asla | .asra | .lsra | .rola
  | .rora => [.a, .n, .z, .v, .c]
  | .subb _ | .sbcb _ | .negb | .clrb | .comb | .aslb | .asrb | .lsrb | .rolb
  | .rorb => [.b, .n, .z, .v, .c]
  | .cmpa _ | .cmpb _ | .cba | .neg _ | .clr _ | .tsta | .tstb | .tst _ | .com _ | .asl _ | .asr _
  | .lsr _ | .rol _ | .ror _ => [.n, .z, .v, .c]
  | .inx | .dex => [.ix, .z]
  | .adx _ => [.ix, .n, .z, .v, .c]
  | .bra _ | .bhi _ | .bls _ | .bcc _ | .bcs _ | .bne _ | .beq _ | .bvc _ | .bvs _ | .bpl _ | .bmi _
  | .bge _ | .blt _ | .bgt _ | .ble _ | .jmp _ => [.pc]
  | .jsr _ | .bsr _ | .rts => [.sp, .pc]
  | .nop | .wai | .unrecognised _ => []
  | .clc | .sec => [.c]
  | .clv | .sev => [.v]
  | .cli | .sei => [.i]
  | .swi => [.sp, .i, .pc]
  | .rti => [.a, .b, .ix, .sp, .pc, .h, .i, .n, .z, .v, .c]

end Sys2Proof.Machine
end

