-- ==== Sys2Proof/Certificates/Slice0/Obligations.lean ====
section
/-! DEFINITION. The statements for the provers, one `def Obligations.<Name> : Prop` each. Every statement
is over all states, and so over all values of the parameters (log 1). -/

section

open Sys2Proof Sys2Proof.Machine

-- Encoding.

/-- Decoding an encoded well-formed instruction gives it back and leaves the bytes after it
(30_encoding R100, R101, R109): no bit of an encoding is dropped. -/
def Obligations.EncodeThenDecode : Prop :=
  ∀ (memImm : Bool) (i : Instr) (rest : List Byte), i.wellFormed memImm = true →
    decode memImm (encode i ++ rest) = .ok (i, rest)

/-- Whatever bytes decode, the decoded instruction is well formed and its encoding is the bytes it was read
from: each byte sequence has one reading (30_encoding R109, R111). -/
def Obligations.DecodeThenEncode : Prop :=
  ∀ (memImm : Bool) (bytes rest : List Byte) (i : Instr), decode memImm bytes = .ok (i, rest) →
    i.wellFormed memImm = true ∧ encode i ++ rest = bytes

/-- Every opcode byte begins an instruction; its length is fixed by that byte alone; with the
memory-immediate group present it is unrecognised, and one byte long, exactly when 30_encoding R110 lists it. -/
def Obligations.EveryOpcodeDecodes : Prop :=
  ∀ (memImm : Bool) (op : Byte) (rest : List Byte),
    (lengthOf memImm op = 1 ∨ lengthOf memImm op = 2 ∨ lengthOf memImm op = 3) ∧
    (lengthOf memImm op ≤ rest.length + 1 →
      ∃ i, decode memImm (op :: rest) = .ok (i, rest.drop (lengthOf memImm op - 1)) ∧
        i.opcode = op ∧ (encode i).length = lengthOf memImm op) ∧
    (decode true (op :: rest) = .ok (.unrecognised op, rest) ↔ op ∈ unrecognisedOpcodes)

/-- Words written out from the encodings of files 40 to 44 decode to their instructions. -/
def Obligations.SampleWordsDecode : Prop :=
  decode true [0x86, 0x80] = .ok (.ldaa (.imm 0x80), []) ∧
  decode true [0xFE, 0x12, 0x34] = .ok (.ldx (.ext 0x1234), []) ∧
  decode true [0xE7, 0x05] = .ok (.stab (.idx 0x05), []) ∧
  decode true [0x9B, 0x10] = .ok (.adda (.dir 0x10), []) ∧
  decode true [0xEC, 0x10] = .ok (.adx (.imm 0x10), []) ∧
  decode true [0x71, 0x0F, 0x02] = .ok (.nim 0x0F 0x02, []) ∧
  decode true [0x78, 0xC0, 0x01] = .ok (.asl (.ext 0xC001), []) ∧
  decode true [0x2E, 0xFE] = .ok (.bgt 0xFE, []) ∧
  decode true [0xBD, 0x20, 0x00] = .ok (.jsr (.ext 0x2000), []) ∧
  decode true [0x3F] = .ok (.swi, []) ∧
  decode true [0x87, 0x00] = .ok (.unrecognised 0x87, [0x00])

-- The CPU step.

/-- A step runs the instruction that the bytes at pc decode to, with pc at the next instruction, and then ticks
the PeripheralController once for each clock the instruction took (30_encoding R100, 60_exceptions R400,
70_reset_and_hazards R452). The bytes may lie in RAM, ROM or the stub, and pc may wrap between them. -/
def Obligations.StepRunsTheDecodedInstruction : Prop :=
  ∀ (s : State) (i : Instr), boundaryArm s = .instruction → i.wellFormed s.cfg.memImm = true →
    (∀ k, k < (encode i).length →
      owner s (s.cpu.pc + BitVec.ofNat 16 k) ≠ .via ∧
      plainByte s (s.cpu.pc + BitVec.ofNat 16 k) = (encode i).getD k 0) →
    ∃ t, exec i { s with cpu := { s.cpu with pc := s.cpu.pc + BitVec.ofNat 16 (encode i).length } } = .next t ∧
      step s = .next (ticks (t.clock - s.clock) t)

/-- Whatever owns the bytes at pc, the VIA included: the fetch reads exactly the bytes of one well-formed
instruction, one `load8` each in ascending address order with its side effects, pc moves past them modulo
65536, and the instruction is executed from there (30_encoding R100, R112, 20_memory R92). -/
def Obligations.FetchReadsTheInstructionInOrder : Prop :=
  ∀ s : State, boundaryArm s = .instruction →
    ∃ i : Instr, i.wellFormed s.cfg.memImm = true ∧
      let n := (encode i).length
      let r := loadRun ((List.range n).map fun k => s.cpu.pc + BitVec.ofNat 16 k) s
      r.1 = encode i ∧
      cpuStep s = exec i { r.2 with cpu := { s.cpu with pc := s.cpu.pc + BitVec.ofNat 16 n } }

/-- Taking a reset (60_exceptions R401): the three latches cleared, I set, pc the word at `VEC_RESET`, the
clock 0, nothing pushed and nothing else written but what reading the vector does, no tick after it, and the
`execute` call ends with overrun 0. -/
def Obligations.ResetIsTaken : Prop :=
  ∀ s : State, s.req.resetPending = true →
    let s1 : State :=
      { s with req := { s.req with resetPending := false, waitActive := false, nmiPending := false } }
    let w := load16 s.cfg.vecReset s1
    let t : State := { w.2 with cpu := { s.cpu with i := true, pc := w.1 }, clock := 0 }
    step s = .next t ∧ ∀ target, executeBatch (target + 1) s = .returned 0 t

/-- The halted step (60_exceptions R414) and the wait step (R402). Halted: nothing changes, and an `execute`
call returns at once. Waiting: an NMI, an unmasked IRQ, or one idle clock with its tick. -/
def Obligations.HaltedAndWaitingSteps : Prop :=
  ∀ s : State, s.req.resetPending = false →
    (s.req.haltActive = true → step s = .next s ∧ ∀ target, executeBatch (target + 1) s = .returned 0 s) ∧
    (s.req.haltActive = false → s.req.waitActive = true →
      (s.req.nmiPending = true →
        step s = .next (ticks s.cfg.intEntryCycles (entered s.cfg.vecNmi s.cfg.intEntryCycles
          { s with req := { s.req with nmiPending := false, waitActive := false } }))) ∧
      (s.req.nmiPending = false → s.req.irqPending = true → s.cpu.i = false →
        step s = .next (ticks s.cfg.intEntryCycles (entered s.cfg.vecIrq s.cfg.intEntryCycles
          { s with req := { s.req with waitActive := false } }))) ∧
      (s.req.nmiPending = false → s.req.irqPending = false ∨ s.cpu.i = true →
        step s = .next (tick { s with clock := s.clock + 1 })))

/-- Interrupts at a boundary in normal running, and the entry sequence they share (60_exceptions R404): a pending NMI is
entered whatever I is, before an IRQ, and its request is consumed; an IRQ is entered only while I is clear, and
its request stays; otherwise the boundary goes on to the instruction. The entry writes the seven-byte frame downward from
SP, sets I, takes the vector's word and costs `INT_ENTRY_CYCLES`, 12 by default. -/
def Obligations.InterruptsAtTheBoundary : Prop :=
  defaultConfig.intEntryCycles = 12 ∧
  ∀ s : State, s.req.resetPending = false → s.req.haltActive = false → s.req.waitActive = false →
    (s.req.nmiPending = true →
      step s = .next (ticks s.cfg.intEntryCycles (entered s.cfg.vecNmi s.cfg.intEntryCycles
        { s with req := { s.req with nmiPending := false } }))) ∧
    (s.req.nmiPending = false → s.req.irqPending = true → s.cpu.i = false →
      step s = .next (ticks s.cfg.intEntryCycles (entered s.cfg.vecIrq s.cfg.intEntryCycles s))) ∧
    (s.req.nmiPending = false → s.req.irqPending = false ∨ s.cpu.i = true →
      boundaryArm s = .instruction)

/-- RTI undoes an entry (60_exceptions R404, R408, 44_system R258, R259): when the seven bytes below SP are RAM, a
handler that leaves SP and the seven frame bytes as the entry left them, and whatever else it did, returns with
every register and flag as it was before the NMI, the IRQ or the SWI, and reads nothing but memory. -/
def Obligations.RtiUndoesAnEntry : Prop :=
  ∀ s t u : State, ramDown s s.cpu.sp 7 → Memory.wf s.mem = true →
    (t = takeNmi s ∨ t = takeIrq s ∨ exec .swi s = .next t) →
    u.cfg = s.cfg → u.cpu.sp = t.cpu.sp →
    (∀ k < 7, readByte u.mem (s.cpu.sp - BitVec.ofNat 16 k).toNat =
      readByte t.mem (s.cpu.sp - BitVec.ofNat 16 k).toNat) →
    ∃ w, exec .rti u = .next w ∧ w.cpu = s.cpu ∧ w.mem = u.mem ∧ w.via = u.via ∧ w.req = u.req

/-- Every CPU step answers a next state, followed by exactly as many ticks as the clocks it added
(60_exceptions R410, 70_reset_and_hazards R452): the cost of the instruction, 1 for an unrecognised opcode or an
idle wait poll, the entry cost, 0 for a halted step and for a taken reset, which sets the clock to 0. -/
def Obligations.EveryStepTicksItsCost : Prop :=
  ∀ s : State, ∃ (u : State) (n : Nat),
    cpuStep s = .next u ∧ step s = .next (ticks n u) ∧
    u.clock = (if boundaryArm s = .reset then 0 else s.clock + n) ∧
    match boundaryArm s with
    | .reset => n = 0
    | .halted => n = 0 ∧ u = s
    | .waiting => n = if s.req.nmiPending ∨ (s.req.irqPending ∧ ¬s.cpu.i) then s.cfg.intEntryCycles else 1
    | .nmi => n = s.cfg.intEntryCycles
    | .irq => n = s.cfg.intEntryCycles
    | .instruction =>
      ∃ i, i = (fetchInstr s).1 ∧
        n = if i = .unrecognised i.opcode then 1 else cyclesOf s.cfg i.opcode

/-- Every instruction answers a next state from every state, and adds its cost whatever its operands are
(30_encoding R108, 60_exceptions R410, 70_reset_and_hazards R470). -/
def Obligations.EveryInstructionCompletesAtItsCost : Prop :=
  ∀ (i : Instr) (s : State), ∃ t, exec i s = .next t ∧ t.cfg = s.cfg ∧
    t.clock = s.clock + (if i = .unrecognised i.opcode then 1 else cyclesOf s.cfg i.opcode)

/-- The Reset event and the step that takes it, from any state whose IRQ request is the level of the line
(10_state R29, R45, 70_reset_and_hazards R450, R451): the whole state afterwards. What no rule resets keeps its
value. The vector lies in memory or in unmapped space. -/
def Obligations.ResetEventLeavesTheResetState : Prop :=
  ∀ s : State, s.req.irqPending = s.via.irqLine →
    owner s s.cfg.vecReset ≠ .via → owner s (s.cfg.vecReset + 1) ≠ .via →
    step (envStep .resetEvent s) = .next
      { cpu := { s.cpu with i := true, pc := plainWord s s.cfg.vecReset }
        req := { resetPending := false, nmiPending := false, irqPending := false,
                 haltActive := s.req.haltActive, waitActive := false }
        clock := 0
        via :=
          { s.via with
            ora := 0, orb := 0, ira := 0, irb := 0, ddra := 0, ddrb := 0, acr := 0, pcr := 0
            ifr := 0, ier := 0, irqLine := false
            t1Armed := false, t2Armed := false, t1JustLoaded := false, t2JustLoaded := false
            t1Pb7 := true, pb6Prev := s.via.pbIn.getLsbD 6
            srCount := 0, srPhase := .notify, srActive := false
            ca2Out := true, cb1Out := true, cb2Out := true, ca2Pulse := false, cb2Pulse := false }
        mem := s.mem
        cfg := s.cfg }

-- Invariants and frames.

/-- The reset state is good: the VIA invariants hold of it and its memory is in canonical form. It holds values the model
chose where the spec gives none (logs 2 to 6). -/
def Obligations.ResetIsGood : Prop := Good State.reset

/-- Every CPU step with its ticks keeps the invariants of the VIA (10_state R46), with the bound that makes R46(c)
inductive, and the canonical form of memory, which is the model's own (log 5), from every good state. -/
def Obligations.StepKeepsGood : Prop := ∀ s t : State, Good s → step s = .next t → Good t

/-- Every call of the environment keeps them (60_exceptions R428), and so does every timeline of environment steps and CPU
steps (70_reset_and_hazards R453): `irqPending` is the level of the line all along. -/
def Obligations.EnvironmentKeepsGood : Prop :=
  (∀ (e : EnvCall) (s : State), Good s → Good (envStep e s)) ∧
  ∀ (es : List MachineEvent) (s t : State), Good s → timeline es s = .next t → Good t

/-- No instruction writes a request latch but WAI, which sets `waitActive` (10_state R26); `irqPending` and the
VIA change through the accesses to the VIA alone, so not at all where no address is the VIA's. -/
def Obligations.OnlyWaiWritesALatch : Prop :=
  ∀ (i : Instr) (s t : State), exec i s = .next t →
    t.req.resetPending = s.req.resetPending ∧ t.req.nmiPending = s.req.nmiPending ∧
    t.req.haltActive = s.req.haltActive ∧
    t.req.waitActive = (if i = .wai then true else s.req.waitActive) ∧
    ((∀ a, owner s a ≠ .via) → t.req.irqPending = s.req.irqPending ∧ t.via = s.via)

/-- An instruction leaves every byte of memory as it was, outside the bytes it stores to: none for an instruction
that stores nothing, else the addresses its meaning computes (files 40 to 44, 20_memory R87). -/
def Obligations.MemoryFrame : Prop :=
  ∀ (i : Instr) (s t : State), exec i s = .next t →
    ∀ b : Nat, (∀ a ∈ storedAddresses i s, b ≠ a.toNat) → readByte t.mem b = readByte s.mem b

/-- No step of the machine, whichever arm it takes, changes a byte at an address that is not RAM: ROM keeps its
bytes (10_state R31, 20_memory R88). -/
def Obligations.OnlyRamChanges : Prop :=
  ∀ (s t : State) (a : Word), step s = .next t → owner s a ≠ .ram →
    readByte t.mem a.toNat = readByte s.mem a.toNat

/-- An instruction leaves every register and every flag that its rule does not name as it was (10_state R24,
40_load_store_transfer R120). -/
def Obligations.RegisterFrame : Prop :=
  ∀ (i : Instr) (s t : State), exec i s = .next t →
    ∀ f : CpuField, f ∉ destinations i → t.cpu.field f = s.cpu.field f

-- Memory.

/-- The byte accesses by owner (20_memory R72, R73, R77, 10_state R31): a RAM byte reads as last written and
a write leaves every other byte alone, ROM and the stub drop writes, the stub reads 0xAA at `DIAG_ADDR` and 0x00
elsewhere, and an access to the VIA is one to the register `a mod 16` (46_via_registers R300). -/
def Obligations.ByteAccessesByOwner : Prop :=
  ∀ (s : State) (a : Word) (v : Byte),
    (owner s a = .ram → load8 a s = (readByte s.mem a.toNat, s) ∧
      (Memory.wf s.mem = true → load8 a (store8 a v s) = (v, store8 a v s)) ∧
      (∀ b : Nat, b ≠ a.toNat → readByte (store8 a v s).mem b = readByte s.mem b) ∧
      store8 a v s = { s with mem := (store8 a v s).mem }) ∧
    (owner s a = .rom → load8 a s = (readByte s.mem a.toNat, s) ∧ store8 a v s = s) ∧
    (owner s a = .stub → load8 a s = ((if a = s.cfg.diagAddr then 0xAA else 0x00), s) ∧ store8 a v s = s) ∧
    (owner s a = .via →
      ∀ b : Word, b.toNat % 16 = a.toNat % 16 → owner s b = .via →
        load8 b s = load8 a s ∧ store8 b v s = store8 a v s)

/-- A 16-bit access is two byte accesses, the byte at `addr` first and in the high half, `addr+1` wrapped
(20_memory R74, R75, R84, R85); in RAM a word reads back as stored, its byte at `addr` is the high one, and
a word at 0xFFFF lies in the bytes 0xFFFF and 0x0000. -/
def Obligations.WordAccesses : Prop :=
  ∀ (s : State) (a v : Word),
    (let h := load8 a s
     let l := load8 (a + 1) h.2
     (load16 a s).1.toNat = h.1.toNat * 256 + l.1.toNat ∧ (load16 a s).2 = l.2) ∧
    store16 a v s =
      store8 (a + 1) (BitVec.ofNat 8 (v.toNat % 256)) (store8 a (BitVec.ofNat 8 (v.toNat / 256)) s) ∧
    (owner s a = .ram → owner s (a + 1) = .ram → Memory.wf s.mem = true →
      load16 a (store16 a v s) = (v, store16 a v s) ∧
      readByte (store16 a v s).mem a.toNat = BitVec.ofNat 8 (v.toNat / 256) ∧
      readByte (store16 a v s).mem ((a.toNat + 1) % 65536) = BitVec.ofNat 8 (v.toNat % 256))

/-- Building the map (20_memory R79, R80): a list of well-formed devices is accepted and every address then
belongs to the latest of them whose region contains it, or to the stub; a malformed one is a
`ConfigurationError`. That a capacity from 0 to 65535 is one too is the model's reading of D18 and U12 (log 13). -/
def Obligations.MapOwnership : Prop :=
  (∀ capacity, allocateMap capacity = if capacity = 65536 then .ok [] else .error .badCapacity) ∧
  ∀ rs : List Region,
    ((∀ r ∈ rs, r.first ≤ r.last ∧ r.last ≤ 0xFFFF) →
      ∃ m, registerAll rs [] = .ok m ∧
        ∀ a, ownerIn m a =
          ((rs.reverse.find? fun r => decide (r.first ≤ a ∧ a ≤ r.last)).map Region.kind).getD .stub) ∧
    ((∃ r ∈ rs, r.last < r.first ∨ 0xFFFF < r.last) →
      ∀ m, registerAll rs m = .error .malformedRegion)

/-- Which accesses have side effects (20_memory R87): a read changes nothing unless it is a read of register 0, 1, 4, 8
or 10 of the VIA, and then it changes the VIA and the interrupt request alone; a write outside RAM and the VIA
changes nothing; a write to the VIA changes no byte of memory. -/
def Obligations.SideEffectsOfAccesses : Prop :=
  ∀ (s : State) (a : Word) (v : Byte),
    ((owner s a ≠ .via ∨ a.toNat % 16 ∉ [0, 1, 4, 8, 10]) → (load8 a s).2 = s) ∧
    ViaOnly s (load8 a s).2 ∧
    (owner s a = .rom ∨ owner s a = .stub → store8 a v s = s) ∧
    (owner s a = .via → ViaOnly s (store8 a v s))

/-- The effective addresses (30_encoding R103 to R107, R115) as numbers, and the accesses each operand form makes. -/
def Obligations.EffectiveAddresses : Prop :=
  ∀ (s : State) (b : Byte) (a : Word),
    (eaDir b).toNat = b.toNat ∧
    (eaIdx b s).toNat = (s.cpu.ix.toNat + b.toNat) % 65536 ∧
    ((relTarget s.cpu.pc b).toNat : Int) = (s.cpu.pc.toNat + b.toInt) % 65536 ∧
    (readOperand8 (.imm b) s = (b, s) ∧ readOperand8 (.dir b) s = load8 (eaDir b) s ∧
      readOperand8 (.idx b) s = load8 (eaIdx b s) s ∧ readOperand8 (.ext a) s = load8 a s) ∧
    (readOperand16 (.imm a) s = (a, s) ∧ readOperand16 (.dir b) s = load16 (eaDir b) s ∧
      readOperand16 (.idx b) s = load16 (eaIdx b s) s ∧ readOperand16 (.ext a) s = load16 a s) ∧
    ((readAdxOperand (.imm b) s).1.toNat = b.toNat ∧ (readAdxOperand (.imm b) s).2 = s ∧
      readAdxOperand (.ext a) s = load16 a s) ∧
    (storeEa (.dir b) s = eaDir b ∧ storeEa (.idx b) s = eaIdx b s ∧ storeEa (.ext a) s = a) ∧
    (memEa (.idx b) s = eaIdx b s ∧ memEa (.ext a) s = a)

/-- The condition-code byte (10_state R25): bits 7 and 6 read 1, then H, I, N, Z, V, C; writing it drops
bits 7 and 6, so a byte written reads back with them set, and writing back what was read changes nothing. -/
def Obligations.ConditionCodeByte : Prop :=
  ∀ (k : Cpu) (v : Byte),
    (k.ccr.getLsbD 7 = true ∧ k.ccr.getLsbD 6 = true ∧ k.ccr.getLsbD 5 = k.h ∧ k.ccr.getLsbD 4 = k.i ∧
      k.ccr.getLsbD 3 = k.n ∧ k.ccr.getLsbD 2 = k.z ∧ k.ccr.getLsbD 1 = k.v ∧ k.ccr.getLsbD 0 = k.c) ∧
    (Cpu.setCcr v k).ccr = v ||| 0xC0 ∧ Cpu.setCcr k.ccr k = k ∧
    Cpu.setCcr v k = { Cpu.setCcr v k with a := k.a, b := k.b, ix := k.ix, sp := k.sp, pc := k.pc }

-- Loads, stores, transfers, stack.

/-- LDA, LDX, LDS (40_load_store_transfer R121, R123, R124): the register takes the operand, N and Z are its sign
and whether it is zero, V is cleared; H, I, C and every other register stay. -/
def Obligations.Loads : Prop :=
  (AccumulatorRule .ldaa .ldab fun _ m k => (m, withNZV8 m false k)) ∧
  (∀ (m : Operand16) (s : State),
    let r := readOperand16 m s
    exec (.ldx m) s = .next (completed (.ldx m) r.2 (withNZV16 r.1 false { s.cpu with ix := r.1 })) ∧
    exec (.lds m) s = .next (completed (.lds m) r.2 (withNZV16 r.1 false { s.cpu with sp := r.1 }))) ∧
  AccRows .ldaa 0x86 0x96 0xA6 0xB6 ∧ AccRows .ldab 0xC6 0xD6 0xE6 0xF6 ∧
  WordRows .ldx 0xCE 0xDE 0xEE 0xFE ∧ WordRows .lds 0x8E 0x9E 0xAE 0xBE

/-- STA, STX, STS (40_load_store_transfer R122, R125, R126): one byte or two bytes, high byte first, written at the
effective address and nothing read; N and Z from the register, V cleared, also where the store is dropped. -/
def Obligations.Stores : Prop :=
  (∀ (m : StoreAddr) (s : State),
    exec (.staa m) s =
      .next (completed (.staa m) (store8 (storeEa m s) s.cpu.a s) (withNZV8 s.cpu.a false s.cpu)) ∧
    exec (.stab m) s =
      .next (completed (.stab m) (store8 (storeEa m s) s.cpu.b s) (withNZV8 s.cpu.b false s.cpu)) ∧
    exec (.stx m) s =
      .next (completed (.stx m)
        (storeRun [(storeEa m s, hiByte s.cpu.ix), (storeEa m s + 1, loByte s.cpu.ix)] s)
        (withNZV16 s.cpu.ix false s.cpu)) ∧
    exec (.sts m) s =
      .next (completed (.sts m)
        (storeRun [(storeEa m s, hiByte s.cpu.sp), (storeEa m s + 1, loByte s.cpu.sp)] s)
        (withNZV16 s.cpu.sp false s.cpu))) ∧
  StoreRows .staa 0x97 0xA7 0xB7 4 ∧ StoreRows .stab 0xD7 0xE7 0xF7 4 ∧
  StoreRows .stx 0xDF 0xEF 0xFF 5 ∧ StoreRows .sts 0x9F 0xAF 0xBF 5

/-- TAB, TBA, TAP, TPA, TSX, TXS: each moves its register and writes the flags of its rule and no other register or
flag (40_load_store_transfer R127 to R132). -/
def Obligations.Transfers : Prop :=
  (∀ s : State,
    exec .tab s = .next (completed .tab s (withNZV8 s.cpu.a false { s.cpu with b := s.cpu.a })) ∧
    exec .tba s = .next (completed .tba s (withNZV8 s.cpu.b false { s.cpu with a := s.cpu.b })) ∧
    exec .tap s =
      .next (completed .tap s
        { s.cpu with
          h := s.cpu.a.toNat / 32 % 2 == 1, i := s.cpu.a.toNat / 16 % 2 == 1
          n := s.cpu.a.toNat / 8 % 2 == 1, z := s.cpu.a.toNat / 4 % 2 == 1
          v := s.cpu.a.toNat / 2 % 2 == 1, c := s.cpu.a.toNat % 2 == 1 }) ∧
    exec .tpa s =
      .next (completed .tpa s
        { s.cpu with
          a := BitVec.ofNat 8 (192 + 32 * bitNat s.cpu.h + 16 * bitNat s.cpu.i + 8 * bitNat s.cpu.n
            + 4 * bitNat s.cpu.z + 2 * bitNat s.cpu.v + bitNat s.cpu.c) }) ∧
    exec .tsx s =
      .next (completed .tsx s { s.cpu with ix := BitVec.ofNat 16 ((s.cpu.sp.toNat + 1) % 65536) }) ∧
    exec .txs s =
      .next (completed .txs s { s.cpu with sp := BitVec.ofNat 16 ((s.cpu.ix.toNat + 65535) % 65536) })) ∧
  RowIs .tab 0x16 2 ∧ RowIs .tba 0x17 2 ∧ RowIs .tap 0x06 2 ∧ RowIs .tpa 0x07 2 ∧ RowIs .tsx 0x30 4 ∧
  RowIs .txs 0x35 4

/-- PSH and PUL (40_load_store_transfer R133, R134): a push writes at SP and moves SP down by one, a pull moves SP up by
one and reads there, modulo 65536 and whatever owns the address; no flag changes. -/
def Obligations.PushAndPull : Prop :=
  (∀ s : State,
    let r := load8 (s.cpu.sp + 1) s
    exec .psha s = .next (completed .psha (store8 s.cpu.sp s.cpu.a s) { s.cpu with sp := s.cpu.sp - 1 }) ∧
    exec .pshb s = .next (completed .pshb (store8 s.cpu.sp s.cpu.b s) { s.cpu with sp := s.cpu.sp - 1 }) ∧
    exec .pula s = .next (completed .pula r.2 { s.cpu with a := r.1, sp := s.cpu.sp + 1 }) ∧
    exec .pulb s = .next (completed .pulb r.2 { s.cpu with b := r.1, sp := s.cpu.sp + 1 })) ∧
  RowIs .psha 0x36 4 ∧ RowIs .pshb 0x37 4 ∧ RowIs .pula 0x32 4 ∧ RowIs .pulb 0x33 4

-- Arithmetic.

/-- ADD, ADC, ABA (41_arithmetic R151, R152, R153): the sum modulo 256, with C the unsigned carry, V the signed
overflow, H the carry out of bit 3, N and Z of the result; ADC takes the old C as carry-in. -/
def Obligations.Additions : Prop :=
  (AccumulatorRule .adda .addb fun x m k => sum8 x m false k) ∧
  (AccumulatorRule .adca .adcb fun x m k => sum8 x m k.c k) ∧
  (∀ s : State,
    let r := sum8 s.cpu.a s.cpu.b false s.cpu
    exec .aba s = .next (completed .aba s { r.2 with a := r.1 })) ∧
  AccRows .adda 0x8B 0x9B 0xAB 0xBB ∧ AccRows .addb 0xCB 0xDB 0xEB 0xFB ∧
  AccRows .adca 0x89 0x99 0xA9 0xB9 ∧ AccRows .adcb 0xC9 0xD9 0xE9 0xF9 ∧ RowIs .aba 0x1B 2

/-- SUB, SBC, SBA (41_arithmetic R154, R155, R156): the difference modulo 256, with C the unsigned borrow, V the
signed overflow, N and Z of the result, H unchanged; SBC takes the old C as borrow-in. -/
def Obligations.Subtractions : Prop :=
  (AccumulatorRule .suba .subb fun x m k => difference8 x m false k) ∧
  (AccumulatorRule .sbca .sbcb fun x m k => difference8 x m k.c k) ∧
  (∀ s : State,
    let r := difference8 s.cpu.a s.cpu.b false s.cpu
    exec .sba s = .next (completed .sba s { r.2 with a := r.1 })) ∧
  AccRows .suba 0x80 0x90 0xA0 0xB0 ∧ AccRows .subb 0xC0 0xD0 0xE0 0xF0 ∧
  AccRows .sbca 0x82 0x92 0xA2 0xB2 ∧ AccRows .sbcb 0xC2 0xD2 0xE2 0xF2 ∧ RowIs .sba 0x10 2

/-- CMP and CBA (41_arithmetic R157, R158): the flags of the difference, no accumulator written. -/
def Obligations.Compares : Prop :=
  (AccumulatorRule .cmpa .cmpb fun x m k => (x, (difference8 x m false k).2)) ∧
  (∀ s : State,
    exec .cba s = .next (completed .cba s (difference8 s.cpu.a s.cpu.b false s.cpu).2)) ∧
  AccRows .cmpa 0x81 0x91 0xA1 0xB1 ∧ AccRows .cmpb 0xC1 0xD1 0xE1 0xF1 ∧ RowIs .cba 0x11 2

/-- NEG, INC, DEC, CLR, TST on A, B or a memory byte (41_arithmetic R159 to R163): NEG, INC and DEC read the byte once
and write it once, V is the signed overflow, INC and DEC leave C; CLR only writes, TST only reads. -/
def Obligations.OneOperandArithmetic : Prop :=
  (OneOperandRule .nega .negb .neg fun m k =>
    (BitVec.ofInt 8 (-m.toInt),
      withNZV8 (BitVec.ofInt 8 (-m.toInt)) (overflow8 (-m.toInt)) { k with c := decide (0 < m.toNat) })) ∧
  (OneOperandRule .inca .incb .inc fun m k =>
    (BitVec.ofInt 8 (m.toInt + 1), withNZV8 (BitVec.ofInt 8 (m.toInt + 1)) (overflow8 (m.toInt + 1)) k)) ∧
  (OneOperandRule .deca .decb .dec fun m k =>
    (BitVec.ofInt 8 (m.toInt - 1), withNZV8 (BitVec.ofInt 8 (m.toInt - 1)) (overflow8 (m.toInt - 1)) k)) ∧
  (∀ s : State,
    let clear := fun k : Cpu => { withNZV8 0 false k with c := false }
    let test := fun (m : Byte) (k : Cpu) => { withNZV8 m false k with c := false }
    exec .clra s = .next (completed .clra s { clear s.cpu with a := 0 }) ∧
    exec .clrb s = .next (completed .clrb s { clear s.cpu with b := 0 }) ∧
    exec .tsta s = .next (completed .tsta s (test s.cpu.a s.cpu)) ∧
    exec .tstb s = .next (completed .tstb s (test s.cpu.b s.cpu)) ∧
    ∀ m : MemAddr,
      exec (.clr m) s = .next (completed (.clr m) (store8 (memEa m s) 0 s) (clear s.cpu)) ∧
      exec (.tst m) s =
        .next (completed (.tst m) (load8 (memEa m s) s).2 (test (load8 (memEa m s) s).1 s.cpu))) ∧
  OneOperandRows .nega .negb .neg 0x40 0x50 0x60 0x70 ∧ OneOperandRows .inca .incb .inc 0x4C 0x5C 0x6C 0x7C ∧
  OneOperandRows .deca .decb .dec 0x4A 0x5A 0x6A 0x7A ∧ OneOperandRows .clra .clrb .clr 0x4F 0x5F 0x6F 0x7F ∧
  OneOperandRows .tsta .tstb .tst 0x4D 0x5D 0x6D 0x7D

/-- DAA (41_arithmetic R164): the correction from the digits, H and C; C is set by the high correction and never
cleared; V is the parameter `DAA_V` of the values before. After ADC of two packed two-digit numbers it leaves the
packed sum modulo 100, with C the decimal carry. -/
def Obligations.DecimalAdjust : Prop :=
  (∀ s : State,
    let low := s.cpu.a.toNat % 16
    let high := s.cpu.a.toNat / 16
    let fix := (if 9 < low ∨ s.cpu.h then 6 else 0) +
      (if 9 < high ∨ s.cpu.c ∨ (8 < high ∧ 9 < low) then 96 else 0)
    let r := BitVec.ofNat 8 (s.cpu.a.toNat + fix)
    exec .daa s =
      .next (completed .daa s
        (withNZV8 r (daaV s.cfg s.cpu.a s.cpu.h s.cpu.c)
          { s.cpu with a := r, c := s.cpu.c || decide (255 < s.cpu.a.toNat + fix) })) ∧
    ∀ x y : Nat, x < 100 → y < 100 → s.cpu.a = packedBcd x →
      ∃ t u, exec (.adca (.imm (packedBcd y))) s = .next t ∧ exec .daa t = .next u ∧
        u.cpu.a = packedBcd ((x + y + bitNat s.cpu.c) % 100) ∧
        u.cpu.c = decide (100 ≤ x + y + bitNat s.cpu.c)) ∧
  RowIs .daa 0x19 2

/-- INX, DEX, INS, DES, CPX, ADX (41_arithmetic R165 to R169, R178). INX and DEX write Z alone, INS and DES no flag;
CPX writes N, Z, V by the rule `CPX_NV` selects and neither IX nor C; ADX adds an unsigned byte or a word to IX,
with N, Z, V, C of the 16-bit sum, and leaves H. -/
def Obligations.IndexAndStackArithmetic : Prop :=
  (∀ s : State,
    let up := s.cpu.ix + 1
    let down := s.cpu.ix - 1
    exec .inx s = .next (completed .inx s { s.cpu with ix := up, z := decide (up.toNat = 0) }) ∧
    exec .dex s = .next (completed .dex s { s.cpu with ix := down, z := decide (down.toNat = 0) }) ∧
    exec .ins s = .next (completed .ins s { s.cpu with sp := s.cpu.sp + 1 }) ∧
    exec .des s = .next (completed .des s { s.cpu with sp := s.cpu.sp - 1 })) ∧
  (∀ (m : Operand16) (s : State),
    let r := readOperand16 m s
    let d := hiByte s.cpu.ix - hiByte r.1
    exec (.cpx m) s =
      .next (completed (.cpx m) r.2
        { s.cpu with
          z := decide (s.cpu.ix = r.1)
          n := match s.cfg.cpxNV with
            | .sixteenBit => isNeg16 (s.cpu.ix - r.1)
            | .highByte => isNeg8 d
          v := match s.cfg.cpxNV with
            | .sixteenBit => overflow16 (s.cpu.ix.toInt - r.1.toInt)
            | .highByte => overflow8 ((hiByte s.cpu.ix).toInt - (hiByte r.1).toInt) })) ∧
  (∀ (m : AdxOperand) (s : State),
    let r := readAdxOperand m s
    exec (.adx m) s =
      .next (completed (.adx m) r.2
        (withNZV16 (s.cpu.ix + r.1) (overflow16 (s.cpu.ix.toInt + r.1.toInt))
          { s.cpu with ix := s.cpu.ix + r.1, c := decide (65536 ≤ s.cpu.ix.toNat + r.1.toNat) }))) ∧
  RowIs .inx 0x08 4 ∧ RowIs .dex 0x09 4 ∧ RowIs .ins 0x31 4 ∧ RowIs .des 0x34 4 ∧
  WordRows .cpx 0x8C 0x9C 0xAC 0xBC ∧
  ∀ (v : Byte) (a : Word), RowIs (.adx (.imm v)) 0xEC 3 ∧ RowIs (.adx (.ext a)) 0xFC 7

-- Logic and shifts.

/-- AND, BIT, ORA, EOR (42_logic_shift R190 to R193): bit by bit, N and Z of the result, V cleared; BIT writes no
accumulator. -/
def Obligations.LogicOnAccumulators : Prop :=
  (AccumulatorRule .anda .andb fun x m k => (x &&& m, withNZV8 (x &&& m) false k)) ∧
  (AccumulatorRule .bita .bitb fun x m k => (x, withNZV8 (x &&& m) false k)) ∧
  (AccumulatorRule .oraa .orab fun x m k => (x ||| m, withNZV8 (x ||| m) false k)) ∧
  (AccumulatorRule .eora .eorb fun x m k => (x ^^^ m, withNZV8 (x ^^^ m) false k)) ∧
  AccRows .anda 0x84 0x94 0xA4 0xB4 ∧ AccRows .andb 0xC4 0xD4 0xE4 0xF4 ∧
  AccRows .bita 0x85 0x95 0xA5 0xB5 ∧ AccRows .bitb 0xC5 0xD5 0xE5 0xF5 ∧
  AccRows .oraa 0x8A 0x9A 0xAA 0xBA ∧ AccRows .orab 0xCA 0xDA 0xEA 0xFA ∧
  AccRows .eora 0x88 0x98 0xA8 0xB8 ∧ AccRows .eorb 0xC8 0xD8 0xE8 0xF8

/-- COM and the shifts and rotates by one place (42_logic_shift R194 to R200), as arithmetic: doubling, halving rounded
down with or without sign, and the nine-bit rotations through C. C is the bit shifted out and V is N xor C. -/
def Obligations.ComplementAndShifts : Prop :=
  (OneOperandRule .coma .comb .com fun m k =>
    (BitVec.ofNat 8 (255 - m.toNat), { withNZV8 (BitVec.ofNat 8 (255 - m.toNat)) false k with c := true })) ∧
  (OneOperandRule .asla .aslb .asl fun m k =>
    shifted8 (BitVec.ofNat 8 (2 * m.toNat)) (decide (128 ≤ m.toNat)) k) ∧
  (OneOperandRule .asra .asrb .asr fun m k =>
    shifted8 (BitVec.ofInt 8 (m.toInt / 2)) (decide (m.toNat % 2 = 1)) k) ∧
  (OneOperandRule .lsra .lsrb .lsr fun m k =>
    shifted8 (BitVec.ofNat 8 (m.toNat / 2)) (decide (m.toNat % 2 = 1)) k) ∧
  (OneOperandRule .rola .rolb .rol fun m k =>
    shifted8 (BitVec.ofNat 8 (2 * m.toNat + bitNat k.c)) (decide (128 ≤ m.toNat)) k) ∧
  (OneOperandRule .rora .rorb .ror fun m k =>
    shifted8 (BitVec.ofNat 8 (m.toNat / 2 + 128 * bitNat k.c)) (decide (m.toNat % 2 = 1)) k) ∧
  OneOperandRows .coma .comb .com 0x43 0x53 0x63 0x73 ∧ OneOperandRows .asla .aslb .asl 0x48 0x58 0x68 0x78 ∧
  OneOperandRows .asra .asrb .asr 0x47 0x57 0x67 0x77 ∧ OneOperandRows .lsra .lsrb .lsr 0x44 0x54 0x64 0x74 ∧
  OneOperandRows .rola .rolb .rol 0x49 0x59 0x69 0x79 ∧ OneOperandRows .rora .rorb .ror 0x46 0x56 0x66 0x76

/-- NIM, OIM, XIM, TMM (42_logic_shift R201 to R204): the memory byte is read once, and by all but TMM written once with
the result. Unless the parameters say otherwise of these operands (93_implementation_defined U9), Z is a zero result, N a
non-zero one, V clear; and TMM sets exactly one of Z (no masked bit is one), V (all are), N (some are). -/
def Obligations.MemoryImmediate : Prop :=
  (∀ (imm off : Byte) (s : State),
    let ea := eaIdx off s
    let d := load8 ea s
    let ends := fun (i : Instr) (r : Byte) (t : State) =>
      exec i s = .next (completed i t (setNZV (memImmFlags s.cfg r) s.cpu)) ∧
      (s.cfg.memImmFlagOverrides.lookup r = none → setNZV (memImmFlags s.cfg r) s.cpu =
        { s.cpu with n := decide (0 < r.toNat), z := decide (r.toNat = 0), v := false })
    ends (.nim imm off) (d.1 &&& imm) (store8 ea (d.1 &&& imm) d.2) ∧
    ends (.oim imm off) (d.1 ||| imm) (store8 ea (d.1 ||| imm) d.2) ∧
    ends (.xim imm off) (d.1 ^^^ imm) (store8 ea (d.1 ^^^ imm) d.2) ∧
    exec (.tmm imm off) s = .next (completed (.tmm imm off) d.2 (setNZV (tmmFlags s.cfg d.1 imm) s.cpu)) ∧
    (s.cfg.tmmFlagOverrides.lookup (d.1, imm) = none → setNZV (tmmFlags s.cfg d.1 imm) s.cpu =
      let someOne := (List.range 8).any fun j => imm.getLsbD j && d.1.getLsbD j
      let someZero := (List.range 8).any fun j => imm.getLsbD j && !d.1.getLsbD j
      { s.cpu with z := !someOne, v := someOne && !someZero, n := someOne && someZero })) ∧
  ∀ imm off : Byte, RowIs (.nim imm off) 0x71 8 ∧ RowIs (.oim imm off) 0x72 8 ∧ RowIs (.xim imm off) 0x75 8 ∧
    RowIs (.tmm imm off) 0x7B 7

-- Branches, jumps, calls.

/-- BRA and the branches on C, Z, V, N and C or Z (43_branch_jump R222 to R232): taken to the relative target exactly
when the condition holds, no flag changed, the same cost either way. -/
def Obligations.SimpleBranches : Prop :=
  BranchRule .bra 0x20 (fun _ => True) ∧
  BranchRule .bhi 0x22 (fun k => k.c = false ∧ k.z = false) ∧
  BranchRule .bls 0x23 (fun k => k.c = true ∨ k.z = true) ∧
  BranchRule .bcc 0x24 (fun k => k.c = false) ∧ BranchRule .bcs 0x25 (fun k => k.c = true) ∧
  BranchRule .bne 0x26 (fun k => k.z = false) ∧ BranchRule .beq 0x27 (fun k => k.z = true) ∧
  BranchRule .bvc 0x28 (fun k => k.v = false) ∧ BranchRule .bvs 0x29 (fun k => k.v = true) ∧
  BranchRule .bpl 0x2A (fun k => k.n = false) ∧ BranchRule .bmi 0x2B (fun k => k.n = true)

/-- BGE, BLT, BGT, BLE: each is taken exactly on its condition on N, V and Z, and changes no register but `pc`, and no flag
(43_branch_jump R233 to R236). -/
def Obligations.SignedBranches : Prop :=
  BranchRule .bge 0x2C (fun k => k.n = k.v) ∧ BranchRule .blt 0x2D (fun k => k.n ≠ k.v) ∧
  BranchRule .bgt 0x2E (fun k => k.z = false ∧ k.n = k.v) ∧
  BranchRule .ble 0x2F (fun k => k.z = true ∨ k.n ≠ k.v)

/-- What a branch after a compare decides (the corner cases of 43_branch_jump R223 to R228, R233 to R236): the
unsigned and the signed order of the accumulator and the operand, over all of their values. -/
def Obligations.BranchAfterCompare : Prop :=
  ∀ (m rel : Byte) (s t : State), exec (.cmpa (.imm m)) s = .next t →
    let goes := fun (i : Instr) =>
      exec i t = .next (completed i t { t.cpu with pc := relTarget t.cpu.pc rel })
    let falls := fun (i : Instr) => exec i t = .next (completed i t t.cpu)
    (if m.toNat < s.cpu.a.toNat then goes (.bhi rel) ∧ falls (.bls rel)
      else falls (.bhi rel) ∧ goes (.bls rel)) ∧
    (if m.toNat ≤ s.cpu.a.toNat then goes (.bcc rel) ∧ falls (.bcs rel)
      else falls (.bcc rel) ∧ goes (.bcs rel)) ∧
    (if s.cpu.a = m then goes (.beq rel) ∧ falls (.bne rel) else falls (.beq rel) ∧ goes (.bne rel)) ∧
    (if m.toInt ≤ s.cpu.a.toInt then goes (.bge rel) ∧ falls (.blt rel)
      else falls (.bge rel) ∧ goes (.blt rel)) ∧
    (if m.toInt < s.cpu.a.toInt then goes (.bgt rel) ∧ falls (.ble rel)
      else falls (.bgt rel) ∧ goes (.ble rel))

/-- JMP, JSR, BSR, RTS (43_branch_jump R237 to R240): the effective address is the target itself; a call writes the
address of the next instruction at SP, low byte, and SP-1, high byte, and moves SP down by two; RTS reads the
high byte at SP+1, the low byte at SP+2, and moves SP up by two. No flag changes. -/
def Obligations.JumpsCallsAndReturn : Prop :=
  (∀ s : State,
    let pushed := storeRun [(s.cpu.sp, loByte s.cpu.pc), (s.cpu.sp - 1, hiByte s.cpu.pc)] s
    let r := loadRun [s.cpu.sp + 1, s.cpu.sp + 2] s
    (∀ m : MemAddr,
      exec (.jmp m) s = .next (completed (.jmp m) s { s.cpu with pc := memEa m s }) ∧
      exec (.jsr m) s =
        .next (completed (.jsr m) pushed { s.cpu with pc := memEa m s, sp := s.cpu.sp - 2 })) ∧
    (∀ rel : Byte,
      exec (.bsr rel) s =
        .next (completed (.bsr rel) pushed
          { s.cpu with pc := relTarget s.cpu.pc rel, sp := s.cpu.sp - 2 })) ∧
    exec .rts s =
      .next (completed .rts r.2
        { s.cpu with pc := joinBytes (r.1.getD 0 0) (r.1.getD 1 0), sp := s.cpu.sp + 2 })) ∧
  MemRows .jmp 0x6E 0x7E 4 3 ∧ MemRows .jsr 0xAD 0xBD 8 9 ∧ (∀ rel : Byte, RowIs (.bsr rel) 0x8D 8) ∧
  RowIs .rts 0x39 5

/-- A return comes back to the instruction after its call (43_branch_jump R238 to R241): with RAM at the two bytes from
SP down, RTS, from any state that kept SP and those bytes, goes to the pushed pc and restores SP. -/
def Obligations.ReturnComesBackFromACall : Prop :=
  ∀ (s t u : State) (i : Instr), ((∃ m, i = .jsr m) ∨ ∃ rel, i = .bsr rel) →
    ramDown s s.cpu.sp 2 → Memory.wf s.mem = true → exec i s = .next t →
    u.cfg = s.cfg → u.cpu.sp = t.cpu.sp →
    (∀ a ∈ storedAddresses i s, readByte u.mem a.toNat = readByte t.mem a.toNat) →
    ∃ w, exec .rts u = .next w ∧ w.cpu = { u.cpu with pc := s.cpu.pc, sp := s.cpu.sp } ∧ w.mem = u.mem

-- System.

/-- NOP, CLC, SEC, CLV, SEV, CLI, SEI (44_system R250 to R256): the one flag, and nothing else. -/
def Obligations.NopAndFlagInstructions : Prop :=
  (∀ s : State,
    exec .nop s = .next (completed .nop s s.cpu) ∧
    exec .clc s = .next (completed .clc s { s.cpu with c := false }) ∧
    exec .sec s = .next (completed .sec s { s.cpu with c := true }) ∧
    exec .clv s = .next (completed .clv s { s.cpu with v := false }) ∧
    exec .sev s = .next (completed .sev s { s.cpu with v := true }) ∧
    exec .cli s = .next (completed .cli s { s.cpu with i := false }) ∧
    exec .sei s = .next (completed .sei s { s.cpu with i := true })) ∧
  RowIs .nop 0x01 2 ∧ RowIs .clc 0x0C 2 ∧ RowIs .sec 0x0D 2 ∧ RowIs .clv 0x0A 2 ∧ RowIs .sev 0x0B 2 ∧
  RowIs .cli 0x0E 2 ∧ RowIs .sei 0x0F 2

/-- SWI and RTI (44_system R258, R259). SWI writes the seven-byte frame, sets I and takes the word at the SWI vector,
whatever I is; RTI reads the condition byte, B, A, IX and pc upwards from SP+1 and moves SP up by seven. -/
def Obligations.SoftwareInterruptAndReturn : Prop :=
  (∀ s : State,
    exec .swi s = .next (entered s.cfg.vecSwi (cyclesOf s.cfg 0x3F) s) ∧
    (let r := loadRun ((List.range 7).map fun k => s.cpu.sp + BitVec.ofNat 16 (k + 1)) s
     let byte := fun k => r.1.getD k 0
     exec .rti s =
       .next (completed .rti r.2
         { a := byte 2, b := byte 1, ix := joinBytes (byte 3) (byte 4), sp := s.cpu.sp + 7
           pc := joinBytes (byte 5) (byte 6)
           h := (byte 0).getLsbD 5, i := (byte 0).getLsbD 4, n := (byte 0).getLsbD 3
           z := (byte 0).getLsbD 2, v := (byte 0).getLsbD 1, c := (byte 0).getLsbD 0 }))) ∧
  RowIs .swi 0x3F 12 ∧ RowIs .rti 0x3B 10

/-- WAI and the unrecognised opcodes (44_system R260, R262, 30_encoding R110): WAI sets `waitActive` and pushes nothing;
an unrecognised opcode, whatever byte, takes one clock and does nothing else, also where the cost table says more. -/
def Obligations.WaitAndUnrecognised : Prop :=
  (∀ (op : Byte) (s : State),
    exec .wai s =
      .next (completed .wai { s with req := { s.req with waitActive := true } } s.cpu) ∧
    exec (.unrecognised op) s = .next { s with clock := s.clock + 1 }) ∧
  RowIs .wai 0x3E 9 ∧ ∀ op ∈ unrecognisedOpcodes, RowIs (.unrecognised op) op 1

-- The PeripheralController: registers.

/-- The port registers (46_via_registers R303 to R308, R332, R333, R335): each bit read back is the driven level of an
output bit, or the latched or live level of an input bit; register 0 and 1 clear the flags of their port, leaving C?2 when
it is an independent input; a write to register 0 and any access to register 1 drives the handshake output. -/
def Obligations.PortRegisters : Prop :=
  ∀ (s : State) (a : Word) (d : Byte), owner s a = .via →
    let v := s.via
    let outB := fun i => v.ddrb.getLsbD i || (decide (i = 7) && v.acr.getLsbD 7)
    let drivenB := fun i => if i = 7 ∧ v.acr.getLsbD 7 then v.t1Pb7 else v.orb.getLsbD i
    let modeA := v.pcr.toNat / 2 % 8
    let modeB := v.pcr.toNat / 32
    let flagsA : BitVec 7 := if modeA = 1 ∨ modeA = 3 then 0b0000010 else 0b0000011
    let flagsB : BitVec 7 := if modeB = 1 ∨ modeB = 3 then 0b0010000 else 0b0011000
    let driveA := fun w : Via =>
      { w with ca2Out := w.ca2Out && modeA != 4 && modeA != 5, ca2Pulse := w.ca2Pulse || modeA == 5 }
    let driveB := fun w : Via =>
      { w with cb2Out := w.cb2Out && modeB != 4 && modeB != 5, cb2Pulse := w.cb2Pulse || modeB == 5 }
    let portA := fun i =>
      if v.ddra.getLsbD i then v.ora.getLsbD i else if v.acr.getLsbD 0 then v.ira.getLsbD i else v.paIn.getLsbD i
    (a.toNat % 16 = 0 →
      (∀ i < 8, (load8 a s).1.getLsbD i =
        if outB i then drivenB i else if v.acr.getLsbD 1 then v.irb.getLsbD i else v.pbIn.getLsbD i) ∧
      (load8 a s).2 = clearFlags flagsB s ∧
      store8 a d s = mapVia driveB (clearFlags flagsB (mapVia (fun w => { w with orb := d }) s))) ∧
    (a.toNat % 16 = 1 →
      (∀ i < 8, (load8 a s).1.getLsbD i = portA i) ∧
      (load8 a s).2 = mapVia driveA (clearFlags flagsA s) ∧
      store8 a d s = mapVia driveA (clearFlags flagsA (mapVia (fun w => { w with ora := d }) s))) ∧
    (a.toNat % 16 = 15 →
      (∀ i < 8, (load8 a s).1.getLsbD i = portA i) ∧ (load8 a s).2 = s ∧
      store8 a d s = mapVia (fun w => { w with ora := d }) s) ∧
    (a.toNat % 16 = 2 → load8 a s = (v.ddrb, s) ∧ store8 a d s = mapVia (fun w => { w with ddrb := d }) s) ∧
    (a.toNat % 16 = 3 → load8 a s = (v.ddra, s) ∧ store8 a d s = mapVia (fun w => { w with ddra := d }) s)

/-- The timer registers (46_via_registers R309 to R319): counters and latches read byte by byte, reading a counter's low
byte clears the timer's flag, writing its high byte loads the counter from the latch and starts it. In its pulse mode
timer 2 is disarmed by either write. -/
def Obligations.TimerRegisters : Prop :=
  ∀ (s : State) (a : Word) (d : Byte), owner s a = .via →
    let v := s.via
    let low := fun (l : Word) => BitVec.ofNat 16 (l.toNat / 256 * 256 + d.toNat)
    let high := fun (l : Word) => BitVec.ofNat 16 (d.toNat * 256 + l.toNat % 256)
    (a.toNat % 16 = 4 →
      load8 a s = (BitVec.ofNat 8 (v.t1c.toNat % 256), clearFlags 0b1000000 s) ∧
      store8 a d s = mapVia (fun w => { w with t1l := low w.t1l }) s) ∧
    (a.toNat % 16 = 5 →
      load8 a s = (BitVec.ofNat 8 (v.t1c.toNat / 256), s) ∧
      store8 a d s = clearFlags 0b1000000 (mapVia (fun w =>
        { w with t1l := high w.t1l, t1c := high w.t1l, t1Armed := true, t1JustLoaded := true
                 t1Pb7 := w.t1Pb7 && !w.acr.getLsbD 7 }) s)) ∧
    (a.toNat % 16 = 6 →
      load8 a s = (BitVec.ofNat 8 (v.t1l.toNat % 256), s) ∧
      store8 a d s = mapVia (fun w => { w with t1l := low w.t1l }) s) ∧
    (a.toNat % 16 = 7 →
      load8 a s = (BitVec.ofNat 8 (v.t1l.toNat / 256), s) ∧
      store8 a d s = clearFlags 0b1000000 (mapVia (fun w => { w with t1l := high w.t1l }) s)) ∧
    (a.toNat % 16 = 8 →
      load8 a s = (BitVec.ofNat 8 (v.t2c.toNat % 256), clearFlags 0b0100000 s) ∧
      store8 a d s = mapVia (fun w =>
        { w with t2l := low w.t2l, t2Armed := w.t2Armed && !w.acr.getLsbD 5 }) s) ∧
    (a.toNat % 16 = 9 →
      load8 a s = (BitVec.ofNat 8 (v.t2c.toNat / 256), s) ∧
      store8 a d s = clearFlags 0b0100000 (mapVia (fun w =>
        { w with t2l := high w.t2l, t2c := high w.t2l, t2Armed := !w.acr.getLsbD 5
                 t2JustLoaded := !w.acr.getLsbD 5 }) s))

/-- The shift register, ACR and PCR as registers (46_via_registers R320 to R325, 47_via_tick R354): any access to the shift
register clears its flag and arms it, active unless its mode is 0; a write of ACR arms it too when it changes the mode; a
write of PCR sets the level of each C?2 output by its new mode. -/
def Obligations.ShiftAndControlRegisters : Prop :=
  ∀ (s : State) (a : Word) (d : Byte), owner s a = .via →
    let v := s.via
    let arm := fun (acr : Byte) (w : Via) =>
      { w with srCount := 0, srPhase := .notify, srActive := decide (acr.toNat / 4 % 8 ≠ 0) }
    let modeA := d.toNat / 2 % 8
    let modeB := d.toNat / 32
    (a.toNat % 16 = 10 →
      load8 a s = (v.sr, mapVia (arm v.acr) (clearFlags 0b0000100 s)) ∧
      store8 a d s = mapVia (arm v.acr) (clearFlags 0b0000100 (mapVia (fun w => { w with sr := d }) s))) ∧
    (a.toNat % 16 = 11 →
      load8 a s = (v.acr, s) ∧
      store8 a d s =
        (if d.toNat / 4 % 8 = v.acr.toNat / 4 % 8 then mapVia (fun w => { w with acr := d }) s
          else mapVia (fun w => arm d { w with acr := d }) s)) ∧
    (a.toNat % 16 = 12 →
      load8 a s = (v.pcr, s) ∧
      store8 a d s = mapVia (fun w =>
        { w with
          pcr := d
          ca2Out := if modeA < 4 then w.ca2Out else decide (modeA ≠ 6)
          ca2Pulse := w.ca2Pulse && modeA != 4 && modeA != 5
          cb2Out := if modeB < 4 then w.cb2Out else decide (modeB ≠ 6)
          cb2Pulse := w.cb2Pulse && modeB != 4 && modeB != 5 }) s)

/-- The interrupt registers (46_via_registers R326 to R330): IFR reads the seven flags with the line in bit 7, and each 1
written clears its flag, bit 7 the flagged-and-enabled ones; IER is changed at the 1 bits, set or cleared as bit 7 says. After
a write of either the line is the composite bit, and `irqPending` follows it when it moves. -/
def Obligations.InterruptRegisters : Prop :=
  ∀ (s : State) (a : Word) (d : Byte), owner s a = .via →
    let v := s.via
    let t := store8 a d s
    let line := decide (∃ i : Fin 7, t.via.ifr.getLsbD i = true ∧ t.via.ier.getLsbD i = true)
    (a.toNat % 16 = 13 →
      (load8 a s).1.getLsbD 7 = v.irqLine ∧ (∀ i < 7, (load8 a s).1.getLsbD i = v.ifr.getLsbD i) ∧
      (load8 a s).2 = s ∧
      (∀ i < 7, t.via.ifr.getLsbD i =
        (v.ifr.getLsbD i && !(d.getLsbD i || (d.getLsbD 7 && v.ier.getLsbD i)))) ∧
      t.via = { v with ifr := t.via.ifr, irqLine := line }) ∧
    (a.toNat % 16 = 14 →
      (load8 a s).1.getLsbD 7 = s.cfg.ierReadBit7 ∧ (∀ i < 7, (load8 a s).1.getLsbD i = v.ier.getLsbD i) ∧
      (load8 a s).2 = s ∧
      (∀ i < 7, t.via.ier.getLsbD i = if d.getLsbD i then d.getLsbD 7 else v.ier.getLsbD i) ∧
      t.via = { v with ier := t.via.ier, irqLine := line }) ∧
    (a.toNat % 16 = 13 ∨ a.toNat % 16 = 14 →
      t = { s with
        via := t.via
        req := { s.req with irqPending := if line = v.irqLine then s.req.irqPending else line } })

-- The PeripheralController: ticks.

/-- One tick of timer 1 (47_via_tick R341, R342): the grace tick after a load; a decrement; or, at 0, the reload
from the latch with, when armed, the flag and the behaviour ACR[7:6] selects. -/
def Obligations.TimerOneTick : Prop :=
  ∀ s : State,
    let v := s.via
    let t := (tick s).via
    t.t1l = v.t1l ∧ t.t1JustLoaded = false ∧
    (v.t1JustLoaded = true →
      t.t1c = v.t1c ∧ t.ifr.getLsbD 6 = v.ifr.getLsbD 6 ∧ t.t1Armed = v.t1Armed ∧ t.t1Pb7 = v.t1Pb7) ∧
    (v.t1JustLoaded = false → 0 < v.t1c.toNat →
      t.t1c.toNat + 1 = v.t1c.toNat ∧ t.ifr.getLsbD 6 = v.ifr.getLsbD 6 ∧ t.t1Armed = v.t1Armed ∧
      t.t1Pb7 = v.t1Pb7) ∧
    (v.t1JustLoaded = false → v.t1c.toNat = 0 →
      t.t1c = v.t1l ∧ t.ifr.getLsbD 6 = (v.ifr.getLsbD 6 || v.t1Armed) ∧
      t.t1Armed = (v.t1Armed && v.acr.getLsbD 6) ∧
      t.t1Pb7 =
        if v.t1Armed = false then v.t1Pb7
        else if v.acr.getLsbD 6 then !v.t1Pb7
        else if v.acr.getLsbD 7 then true
        else v.t1Pb7)

/-- One tick of timer 2 (47_via_tick R344, R345, R346): port B bit 6 is sampled in both modes; the counter counts every
tick but the grace tick, or every falling edge of that bit; at 0 it reloads from the latch and raises its flag once per
arming. -/
def Obligations.TimerTwoTick : Prop :=
  ∀ s : State,
    let v := s.via
    let t := (tick s).via
    let level := if v.ddrb.getLsbD 6 then v.orb.getLsbD 6 else v.pbIn.getLsbD 6
    let pulse := v.acr.getLsbD 5
    let counts := timer2Counts v
    t.pb6Prev = level ∧ t.t2l = v.t2l ∧ t.t2JustLoaded = (pulse && v.t2JustLoaded) ∧
    (counts = false → t.t2c = v.t2c ∧ t.ifr.getLsbD 5 = v.ifr.getLsbD 5 ∧ t.t2Armed = v.t2Armed) ∧
    (counts = true → 0 < v.t2c.toNat →
      t.t2c.toNat + 1 = v.t2c.toNat ∧ t.ifr.getLsbD 5 = v.ifr.getLsbD 5 ∧ t.t2Armed = v.t2Armed) ∧
    (counts = true → v.t2c.toNat = 0 →
      t.t2c = v.t2l ∧ t.ifr.getLsbD 5 = (v.ifr.getLsbD 5 || v.t2Armed) ∧ t.t2Armed = false)

/-- The period of timer 1 with square-wave output (47_via_tick R343): after a write of register 5 that loads L, the first
expiry is at tick L+2 and every later one L+1 ticks after the one before, for ever. PB7, low at first, inverts at each
expiry, and the flag is up from the first one on. -/
def Obligations.TimerOnePeriod : Prop :=
  ∀ (s : State) (a : Word) (d : Byte), owner s a = .via → a.toNat % 16 = 5 →
    s.via.acr.getLsbD 7 = true → s.via.acr.getLsbD 6 = true →
    let latch := d.toNat * 256 + s.via.t1l.toNat % 256
    ∀ k : Nat,
      let t := ticks (k + 1) (store8 a d s)
      t.via.pbPin.getLsbD 7 = decide (k / (latch + 1) % 2 = 1) ∧
      t.via.ifr.getLsbD 6 = decide (latch + 1 ≤ k)

/-- Shifting in under CB1 (47_via_tick R352 to R356): from an armed shift register in mode 0b011, sixteen changes of CB1, the
CB2 level set before each second one, shift eight bits in, the first into bit 7. The shift-complete flag rises at the
sixteenth and not before; then the register is halted, and a further change of CB1 shifts nothing. -/
def Obligations.ShiftInUnderCB1 : Prop :=
  ∀ (s : State) (bits : List Bool), s.via.acr.toNat / 4 % 8 = 3 → s.via.srActive = true →
    s.via.srCount = 0 → s.via.srPhase = .notify → s.via.ifr.getLsbD 2 = false → bits.length = 8 →
    let t := bits.foldl (fun u b => serialBit b u) s
    (∀ j < 8, t.via.sr.getLsbD j = bits.getD (7 - j) false) ∧
    t.via.ifr.getLsbD 2 = true ∧ t.via.srActive = false ∧
    (∀ k < 8, ((bits.take k).foldl (fun u b => serialBit b u) s).via.ifr.getLsbD 2 = false ∧
      (setCB1 (!s.via.cb1In) ((bits.take k).foldl (fun u b => serialBit b u) s)).via.ifr.getLsbD 2
        = false) ∧
    (∀ level, (setCB1 level t).via.sr = t.via.sr ∧ (setCB1 level t).via.srCount = t.via.srCount ∧
      (setCB1 level t).via.srPhase = t.via.srPhase ∧ (setCB1 level t).via.srActive = false)

/-- The clocking of the shift register in every mode (47_via_tick R350 to R355). One phase, `srStep()`: what notify and
shift do to SR, its counter, its phase, CB1 and CB2, and the flag with the halt after the eighth. One tick performs a phase
in modes 0b010 and 0b110, and at a timer 2 expiry in modes 0b001, 0b100 and 0b101, whether or not timer 2 is armed; no tick
does in the other modes. One change of CB1 performs a phase in modes 0b011 and 0b111 and in no other. Then, byte by byte: from
an armed shift register in mode 0b110, bits 7 down to 0 appear on CB2 at the odd ticks, while CB1 is low; CB1 is high again at
the even ticks; the sixteenth raises the flag and halts, with the byte back in place. -/
def Obligations.ShiftRegisterClocking : Prop :=
  (∀ s : State, srStep s =
    if phaseCompletes s.via then setFlag .sr (mapVia onePhase s) else mapVia onePhase s) ∧
  (∀ s : State,
    let v := { s.via with cb2Out := s.via.cb2Out || s.via.cb2Pulse }
    let w := if tickClocksSr v then onePhase v else v
    (tick s).via.shifter = w.shifter ∧
    (tick s).via.ifr.getLsbD 2 = (v.ifr.getLsbD 2 || tickClocksSr v && phaseCompletes v)) ∧
  (∀ (level : Bool) (s : State), s.via.cb1In ≠ level →
    let external := srMode s.via = 3 ∨ srMode s.via = 7
    let released := level = s.via.pcr.getLsbD 4 ∧ s.via.pcr.toNat / 32 = 4
    let v := { s.via with cb2Out := s.via.cb2Out || decide released }
    let w := if external then onePhase v else v
    (envStep (.setCB1 level) s).via.shifter = w.shifter ∧
    (envStep (.setCB1 level) s).via.ifr.getLsbD 2 =
      (v.ifr.getLsbD 2 || decide external && phaseCompletes v)) ∧
  ∀ s : State, srMode s.via = 6 → s.via.srActive = true → s.via.srCount = 0 →
    s.via.srPhase = .notify → s.via.ifr.getLsbD 2 = false →
    (∀ j < 8,
      (ticks (2 * j + 1) s).via.cb2Out = s.via.sr.getLsbD (7 - j) ∧
      (ticks (2 * j + 1) s).via.cb1Out = false ∧ (ticks (2 * j + 2) s).via.cb1Out = true ∧
      (ticks (2 * j + 1) s).via.ifr.getLsbD 2 = false) ∧
    ∀ n, (ticks (16 + n) s).via.sr = s.via.sr ∧ (ticks (16 + n) s).via.srActive = false ∧
      (ticks (16 + n) s).via.ifr.getLsbD 2 = true

/-- A pulse output lasts until the next tick (46_via_registers R303 to R306, R335, 47_via_tick R347). In the pulse mode of CA2
a write and a read of register 1 drive it low, the next tick returns it high, and it stays high. In the pulse mode of CB2 a
write of register 0 drives it low, a read of register 0 does not, and the next tick returns it high, unless a notify phase of a
shift out presents bit 7 on CB2 in that tick; with the shift register halted it stays high. Every tick ends both pulses. -/
def Obligations.PulseLastsOneTick : Prop :=
  (∀ s : State, (tick s).via.ca2Out = (s.via.ca2Out || s.via.ca2Pulse) ∧
    (tick s).via.ca2Pulse = false ∧ (tick s).via.cb2Pulse = false) ∧
  (∀ (s : State) (a : Word) (d : Byte), owner s a = .via → a.toNat % 16 = 1 → s.via.pcr.toNat / 2 % 8 = 5 →
    ∀ t, t = store8 a d s ∨ t = (load8 a s).2 →
      t.via.ca2Out = false ∧ t.via.cb2Out = s.via.cb2Out ∧ ∀ n, (ticks (n + 1) t).via.ca2Out = true) ∧
  ∀ (s : State) (a : Word) (d : Byte), owner s a = .via → a.toNat % 16 = 0 → s.via.pcr.toNat / 32 = 5 →
    let t := store8 a d s
    let presents := tickClocksSr t.via && t.via.srActive && t.via.srPhase == .notify && decide (4 ≤ srMode t.via)
    t.via.cb2Out = false ∧ t.via.ca2Out = s.via.ca2Out ∧ (load8 a s).2.via.cb2Out = s.via.cb2Out ∧
    (tick t).via.cb2Out = (if presents then decide (128 ≤ t.via.sr.toNat) else true) ∧
    (s.via.srActive = false → ∀ n, (ticks (n + 1) t).via.cb2Out = true)

-- The environment and the host.

/-- The control-line inputs (46_via_registers R331): a change to the level the polarity names is active; it raises the
line's flag, on CA1 and CB1 it also latches the port and ends a handshake, on CA2 and CB2 it counts in the input modes
alone; a change of CB1 then clocks the shift register in modes 0b011 and 0b111. Setting the same level does nothing. -/
def Obligations.ControlLineEvents : Prop :=
  ∀ (level : Bool) (s : State),
    let v := s.via
    let activeA := v.ca1In != level && level == v.pcr.getLsbD 0
    let activeB := v.cb1In != level && level == v.pcr.getLsbD 4
    let a1 := mapVia (fun w =>
      { w with ca1In := level, ira := if activeA && v.acr.getLsbD 0 then v.paIn else v.ira }) s
    let b1 := mapVia (fun w =>
      { w with cb1In := level, irb := if activeB && v.acr.getLsbD 1 then v.pbIn else v.irb }) s
    let b2 :=
      if activeB then
        mapVia (fun w => { w with cb2Out := w.cb2Out || v.pcr.toNat / 32 == 4 }) (setFlag .cb1 b1)
      else b1
    (envStep (.setCA1 level) s =
      if activeA then
        mapVia (fun w => { w with ca2Out := w.ca2Out || v.pcr.toNat / 2 % 8 == 4 }) (setFlag .ca1 a1)
      else a1) ∧
    (envStep (.setCA2 level) s =
      if v.pcr.getLsbD 3 = false ∧ v.ca2In ≠ level ∧ level = v.pcr.getLsbD 2 then
        setFlag .ca2 (mapVia (fun w => { w with ca2In := level }) s)
      else mapVia (fun w => { w with ca2In := level }) s) ∧
    (envStep (.setCB1 level) s =
      if v.cb1In ≠ level ∧ (v.acr.toNat / 4 % 8 = 3 ∨ v.acr.toNat / 4 % 8 = 7) then srStep b2 else b2) ∧
    (envStep (.setCB2 level) s =
      if v.pcr.getLsbD 7 = false ∧ v.cb2In ≠ level ∧ level = v.pcr.getLsbD 6 then
        setFlag .cb2 (mapVia (fun w => { w with cb2In := level }) s)
      else mapVia (fun w => { w with cb2In := level }) s) ∧
    (v.ca1In = level → envStep (.setCA1 level) s = s) ∧ (v.ca2In = level → envStep (.setCA2 level) s = s) ∧
    (v.cb1In = level → envStep (.setCB1 level) s = s) ∧ (v.cb2In = level → envStep (.setCB2 level) s = s)

/-- The latch calls and the port pins (60_exceptions R428, 46_via_registers R334, 10_state R26): each latch call of the
environment sets its one latch and nothing else, a second NMI before the first is taken is absorbed, each port event sets the
levels of its port and nothing else, and so does `irq()`, which no call of the environment is (46_via_registers R330). No call
of the environment, the Reset event and the control lines among them, writes a CPU register, the clock, a byte of memory or a
parameter, and where the line is the composite bit each moves `irqPending` exactly when it moves the line, and to its level. -/
def Obligations.EnvironmentCalls : Prop :=
  ∀ s : State,
    envStep .cpuReset s = { s with req := { s.req with resetPending := true } } ∧
    envStep .nmi s = { s with req := { s.req with nmiPending := true } } ∧
    envStep .nmi (envStep .nmi s) = envStep .nmi s ∧
    (∀ level, cpuIrq level s = { s with req := { s.req with irqPending := level } }) ∧
    envStep .halt s = { s with req := { s.req with haltActive := true } } ∧
    envStep .clearHalt s = { s with req := { s.req with haltActive := false } } ∧
    (∀ p, envStep (.setPA p) s = { s with via := { s.via with paIn := p } }) ∧
    (∀ p, envStep (.setPB p) s = { s with via := { s.via with pbIn := p } }) ∧
    ∀ e, (envStep e s).cpu = s.cpu ∧ (envStep e s).mem = s.mem ∧ (envStep e s).clock = s.clock ∧
      (envStep e s).cfg = s.cfg ∧
      (s.via.irqLine = s.via.composite → (envStep e s).req.irqPending =
        if (envStep e s).via.irqLine = s.via.irqLine then s.req.irqPending else (envStep e s).via.irqLine)

/-- `execute(target)` (60_exceptions R427): when no cost is 0, which the model's bound on the loop needs (log 15), a call
returns after some CPU steps of the timeline, either having consumed the target plus the overrun it returns, with no fewer
steps enough, or with overrun 0 right after a step that took a reset or was halted. -/
def Obligations.ExecuteReturns : Prop :=
  ∀ (target : Nat) (s : State), (∀ op, 0 < cyclesOf s.cfg op) → 0 < s.cfg.intEntryCycles →
    ∃ (k overrun : Nat) (t : State),
      executeBatch target s = .returned overrun t ∧ timeline (cpuSteps k) s = .next t ∧
      ((t.clock = s.clock + target + overrun ∧
          ∀ (j : Nat) (u : State), j < k → timeline (cpuSteps j) s = .next u →
            u.clock < s.clock + target ∧ boundaryArm u ≠ .reset ∧ boundaryArm u ≠ .halted) ∨
        (overrun = 0 ∧ ∃ (j : Nat) (u : State), k = j + 1 ∧ timeline (cpuSteps j) s = .next u ∧
          step u = .next t ∧ (boundaryArm u = .reset ∨ boundaryArm u = .halted)))

end
end

