-- ==== Sys2Proof/Laws/Memory.lean ====
section
/-! SUPPORT. The memory laws: a byte written is read back, every other byte is left alone, and a write
keeps the canonical form. -/

namespace Sys2Proof.Machine

/-- A memory whose listed addresses are all at or above `lo` reads its default below `lo`. -/
theorem readByte_below {lo : Nat} {m : Memory} (h : memoryWfFrom lo m = true) {a : Nat} (ha : a < lo) :
    readByte m a = unlistedByte := by
  induction m generalizing lo with
  | nil => rfl
  | cons cell rest ih =>
    obtain ⟨k, v⟩ := cell
    simp only [memoryWfFrom, Bool.and_eq_true, decide_eq_true_eq] at h
    have hk : k ≠ a := by omega
    simpa [readByte, hk] using ih h.2 (by omega)

theorem readByte_consCell (a : Nat) (v : Byte) (m : Memory) (b : Nat) (h : readByte m a = unlistedByte) :
    readByte (consCell a v m) b = if b = a then v else readByte m b := by
  unfold consCell
  by_cases hv : v = unlistedByte
  · by_cases hb : b = a
    · subst hb; simp [hv, h]
    · simp [hv, hb]
  · by_cases hb : b = a
    · simp [hv, hb, readByte]
    · simp [hv, hb, readByte, Ne.symm hb]

/-- A read after a write, in a canonical memory. -/
theorem readByte_writeByte_from {lo : Nat} {m : Memory} (h : memoryWfFrom lo m = true) (a b : Nat)
    (v : Byte) : readByte (writeByte m a v) b = if b = a then v else readByte m b := by
  induction m generalizing lo with
  | nil => exact readByte_consCell a v [] b rfl
  | cons cell rest ih =>
    obtain ⟨k, w⟩ := cell
    have hall := h
    simp only [memoryWfFrom, Bool.and_eq_true, decide_eq_true_eq] at h
    obtain ⟨⟨⟨-, -⟩, -⟩, hrest⟩ := h
    unfold writeByte
    split
    · rename_i hlt
      refine readByte_consCell a v _ b ?_
      have : k ≠ a := by omega
      simpa [readByte, this] using readByte_below hrest (by omega : a < k + 1)
    · split
      · rename_i _ heq
        subst heq
        rw [readByte_consCell a v rest b (readByte_below hrest (by omega))]
        by_cases hb : b = a
        · simp [hb]
        · simp [hb, readByte, Ne.symm hb]
      · rename_i h1 h2
        by_cases hk : k = b
        · have : ¬ b = a := by omega
          simp [readByte, hk, this]
        · simp [readByte, hk, ih hrest]

/-- "A read after a write to the same place gives the value written, and a write leaves every other place
alone." -/
theorem readByte_writeByte {m : Memory} (h : Memory.wf m = true) (a b : Nat) (v : Byte) :
    readByte (writeByte m a v) b = if b = a then v else readByte m b :=
  readByte_writeByte_from h a b v

/-- The write leaves every other place alone, in any memory, canonical or not. -/
theorem readByte_writeByte_ne (m : Memory) {a b : Nat} (h : b ≠ a) (v : Byte) :
    readByte (writeByte m a v) b = readByte m b := by
  induction m with
  | nil => unfold writeByte consCell; split <;> simp [readByte, Ne.symm h]
  | cons cell rest ih =>
    obtain ⟨k, w⟩ := cell
    unfold writeByte
    split
    · unfold consCell; split <;> simp [readByte, Ne.symm h]
    · split
      · rename_i _ heq
        unfold consCell; split <;> simp [readByte, ← heq, Ne.symm h]
      · by_cases hk : k = b <;> simp [readByte, hk, ih]

theorem memoryWfFrom_mono {lo lo' : Nat} (hlo : lo' ≤ lo) {m : Memory} (h : memoryWfFrom lo m = true) :
    memoryWfFrom lo' m = true := by
  cases m with
  | nil => rfl
  | cons cell rest =>
    simp only [memoryWfFrom, Bool.and_eq_true, decide_eq_true_eq] at h ⊢
    exact ⟨⟨⟨by omega, h.1.1.2⟩, h.1.2⟩, h.2⟩

theorem consCell_wf {lo a : Nat} {m : Memory} (v : Byte) (hlo : lo ≤ a) (ha : a < 65536)
    (h : memoryWfFrom (a + 1) m = true) : memoryWfFrom lo (consCell a v m) = true := by
  unfold consCell
  split
  · exact memoryWfFrom_mono (by omega) h
  · simp [memoryWfFrom, *]

theorem writeByte_wf_from {lo a : Nat} {m : Memory} (v : Byte) (hlo : lo ≤ a) (ha : a < 65536)
    (h : memoryWfFrom lo m = true) : memoryWfFrom lo (writeByte m a v) = true := by
  induction m generalizing lo with
  | nil => exact consCell_wf v hlo ha rfl
  | cons cell rest ih =>
    obtain ⟨k, w⟩ := cell
    have hall := h
    simp only [memoryWfFrom, Bool.and_eq_true, decide_eq_true_eq] at h
    obtain ⟨⟨⟨hk, hk'⟩, hw⟩, hrest⟩ := h
    unfold writeByte
    split
    · refine consCell_wf v hlo ha ?_
      simp only [memoryWfFrom, Bool.and_eq_true, decide_eq_true_eq]
      exact ⟨⟨⟨by omega, hk'⟩, hw⟩, hrest⟩
    · split
      · rename_i _ heq
        exact consCell_wf v hlo ha (heq ▸ hrest)
      · simp only [memoryWfFrom, Bool.and_eq_true, decide_eq_true_eq]
        exact ⟨⟨⟨hk, hk'⟩, hw⟩, ih (by omega) hrest⟩

/-- Every write inside the address space keeps the canonical form. -/
theorem writeByte_wf {m : Memory} (h : Memory.wf m = true) {a : Nat} (ha : a < 65536) (v : Byte) :
    Memory.wf (writeByte m a v) = true :=
  writeByte_wf_from v (Nat.zero_le a) ha h

end Sys2Proof.Machine
end

