-- ==== Sys2Proof/Laws/State.lean ====
section
/-! SUPPORT. One lemma per field per update of the state record, each true by `rfl`. -/

namespace Sys2Proof.Machine

variable (s : State)

@[simp] theorem mapVia_cpu (f : Via → Via) : (mapVia f s).cpu = s.cpu := rfl
@[simp] theorem mapVia_req (f : Via → Via) : (mapVia f s).req = s.req := rfl
@[simp] theorem mapVia_clock (f : Via → Via) : (mapVia f s).clock = s.clock := rfl
@[simp] theorem mapVia_via (f : Via → Via) : (mapVia f s).via = f s.via := rfl
@[simp] theorem mapVia_mem (f : Via → Via) : (mapVia f s).mem = s.mem := rfl
@[simp] theorem mapVia_cfg (f : Via → Via) : (mapVia f s).cfg = s.cfg := rfl

@[simp] theorem cpuIrq_cpu (level : Bool) : (cpuIrq level s).cpu = s.cpu := rfl
@[simp] theorem cpuIrq_req (level : Bool) : (cpuIrq level s).req = { s.req with irqPending := level } := rfl
@[simp] theorem cpuIrq_clock (level : Bool) : (cpuIrq level s).clock = s.clock := rfl
@[simp] theorem cpuIrq_via (level : Bool) : (cpuIrq level s).via = s.via := rfl
@[simp] theorem cpuIrq_mem (level : Bool) : (cpuIrq level s).mem = s.mem := rfl
@[simp] theorem cpuIrq_cfg (level : Bool) : (cpuIrq level s).cfg = s.cfg := rfl

@[simp] theorem onCpu_cpu (f : Cpu → Cpu) : (onCpu f s).cpu = f s.cpu := rfl
@[simp] theorem onCpu_req (f : Cpu → Cpu) : (onCpu f s).req = s.req := rfl
@[simp] theorem onCpu_clock (f : Cpu → Cpu) : (onCpu f s).clock = s.clock := rfl
@[simp] theorem onCpu_via (f : Cpu → Cpu) : (onCpu f s).via = s.via := rfl
@[simp] theorem onCpu_mem (f : Cpu → Cpu) : (onCpu f s).mem = s.mem := rfl
@[simp] theorem onCpu_cfg (f : Cpu → Cpu) : (onCpu f s).cfg = s.cfg := rfl

@[simp] theorem addCost_cpu (n : Nat) : (addCost n s).cpu = s.cpu := rfl
@[simp] theorem addCost_req (n : Nat) : (addCost n s).req = s.req := rfl
@[simp] theorem addCost_clock (n : Nat) : (addCost n s).clock = s.clock + n := rfl
@[simp] theorem addCost_via (n : Nat) : (addCost n s).via = s.via := rfl
@[simp] theorem addCost_mem (n : Nat) : (addCost n s).mem = s.mem := rfl
@[simp] theorem addCost_cfg (n : Nat) : (addCost n s).cfg = s.cfg := rfl

@[simp] theorem chargeOpcode_cpu (op : Byte) : (chargeOpcode op s).cpu = s.cpu := rfl
@[simp] theorem chargeOpcode_req (op : Byte) : (chargeOpcode op s).req = s.req := rfl
@[simp] theorem chargeOpcode_clock (op : Byte) : (chargeOpcode op s).clock = s.clock + cyclesOf s.cfg op := rfl
@[simp] theorem chargeOpcode_via (op : Byte) : (chargeOpcode op s).via = s.via := rfl
@[simp] theorem chargeOpcode_mem (op : Byte) : (chargeOpcode op s).mem = s.mem := rfl
@[simp] theorem chargeOpcode_cfg (op : Byte) : (chargeOpcode op s).cfg = s.cfg := rfl

@[simp] theorem jumpTo_cpu (a : Word) : (jumpTo a s).cpu = { s.cpu with pc := a } := rfl
@[simp] theorem jumpTo_req (a : Word) : (jumpTo a s).req = s.req := rfl
@[simp] theorem jumpTo_clock (a : Word) : (jumpTo a s).clock = s.clock := rfl
@[simp] theorem jumpTo_via (a : Word) : (jumpTo a s).via = s.via := rfl
@[simp] theorem jumpTo_mem (a : Word) : (jumpTo a s).mem = s.mem := rfl
@[simp] theorem jumpTo_cfg (a : Word) : (jumpTo a s).cfg = s.cfg := rfl

@[simp] theorem leaveWait_cpu : (leaveWait s).cpu = s.cpu := rfl
@[simp] theorem leaveWait_req : (leaveWait s).req = { s.req with waitActive := false } := rfl
@[simp] theorem leaveWait_clock : (leaveWait s).clock = s.clock := rfl
@[simp] theorem leaveWait_via : (leaveWait s).via = s.via := rfl
@[simp] theorem leaveWait_mem : (leaveWait s).mem = s.mem := rfl
@[simp] theorem leaveWait_cfg : (leaveWait s).cfg = s.cfg := rfl

@[simp] theorem requestReset_cpu : (requestReset s).cpu = s.cpu := rfl
@[simp] theorem requestReset_req : (requestReset s).req = { s.req with resetPending := true } := rfl
@[simp] theorem requestReset_clock : (requestReset s).clock = s.clock := rfl
@[simp] theorem requestReset_via : (requestReset s).via = s.via := rfl
@[simp] theorem requestReset_mem : (requestReset s).mem = s.mem := rfl
@[simp] theorem requestReset_cfg : (requestReset s).cfg = s.cfg := rfl

@[simp] theorem completed_cpu (i : Instr) (k : Cpu) : (completed i s k).cpu = k := rfl
@[simp] theorem completed_req (i : Instr) (k : Cpu) : (completed i s k).req = s.req := rfl
@[simp] theorem completed_clock (i : Instr) (k : Cpu) : (completed i s k).clock = s.clock + cyclesOf s.cfg i.opcode := rfl
@[simp] theorem completed_via (i : Instr) (k : Cpu) : (completed i s k).via = s.via := rfl
@[simp] theorem completed_mem (i : Instr) (k : Cpu) : (completed i s k).mem = s.mem := rfl
@[simp] theorem completed_cfg (i : Instr) (k : Cpu) : (completed i s k).cfg = s.cfg := rfl

@[simp] theorem mapVia_mapVia (f g : Via → Via) : mapVia f (mapVia g s) = mapVia (fun v => f (g v)) s := rfl
@[simp] theorem onCpu_onCpu (f g : Cpu → Cpu) : onCpu f (onCpu g s) = onCpu (fun k => f (g k)) s := rfl

/-- `finish` answers a next state: the given one with the opcode's cost added. -/
theorem finish_eq (op : Byte) : finish op s = .next (chargeOpcode op s) := rfl

end Sys2Proof.Machine
end

