-- ==== Sys2Proof/Laws/Via.lean ====
section
/-! SUPPORT. What a VIA operation can do: it changes the VIA record and, through the interrupt line,
`irqPending`, and nothing else; and what it keeps of the VIA invariants (10_state R46). -/

namespace Sys2Proof.Machine

-- The frame `ViaOnly`.

theorem ViaOnly.refl (s : State) : ViaOnly s s := rfl

theorem ViaOnly.trans {s t u : State} (h1 : ViaOnly s t) (h2 : ViaOnly t u) : ViaOnly s u := by
  unfold ViaOnly at *
  rw [h2, h1]

theorem ViaOnly.cpu {s t : State} (h : ViaOnly s t) : t.cpu = s.cpu := (congrArg State.cpu h :)
theorem ViaOnly.clock {s t : State} (h : ViaOnly s t) : t.clock = s.clock := (congrArg State.clock h :)
theorem ViaOnly.mem {s t : State} (h : ViaOnly s t) : t.mem = s.mem := (congrArg State.mem h :)
theorem ViaOnly.cfg {s t : State} (h : ViaOnly s t) : t.cfg = s.cfg := (congrArg State.cfg h :)

theorem ViaOnly.req {s t : State} (h : ViaOnly s t) :
    t.req = { s.req with irqPending := t.req.irqPending } := (congrArg State.req h :)

theorem mapVia_viaOnly (f : Via → Via) (s : State) : ViaOnly s (mapVia f s) := rfl

theorem updateIrq_viaOnly (s : State) : ViaOnly s (updateIrq s) := by
  unfold updateIrq ViaOnly
  dsimp only
  split <;> rfl

theorem setFlag_viaOnly (src : IrqSource) (s : State) : ViaOnly s (setFlag src s) :=
  (mapVia_viaOnly _ s).trans (updateIrq_viaOnly _)

theorem clearFlags_viaOnly (m : BitVec 7) (s : State) : ViaOnly s (clearFlags m s) :=
  (mapVia_viaOnly _ s).trans (updateIrq_viaOnly _)

theorem portAFlags_viaOnly (s : State) : ViaOnly s (portAFlags s) := clearFlags_viaOnly _ s

theorem portBFlags_viaOnly (s : State) : ViaOnly s (portBFlags s) := clearFlags_viaOnly _ s

theorem writeIfr_viaOnly (d : Byte) (s : State) : ViaOnly s (writeIfr d s) := clearFlags_viaOnly _ s

theorem writeIer_viaOnly (d : Byte) (s : State) : ViaOnly s (writeIer d s) :=
  (mapVia_viaOnly _ s).trans (updateIrq_viaOnly _)

theorem writeT1CounterHigh_viaOnly (d : Byte) (s : State) : ViaOnly s (writeT1CounterHigh d s) :=
  ((mapVia_viaOnly _ s).trans (clearFlags_viaOnly _ _)).trans (mapVia_viaOnly _ _)

theorem writeT2CounterHigh_viaOnly (d : Byte) (s : State) : ViaOnly s (writeT2CounterHigh d s) := by
  unfold writeT2CounterHigh
  exact ((mapVia_viaOnly _ s).trans (clearFlags_viaOnly _ _)).trans (mapVia_viaOnly _ _)

/-- A register read changes the VIA only. -/
theorem viaReadEffect_viaOnly (reg : ViaReg) (s : State) : ViaOnly s (viaReadEffect reg s) := by
  cases reg
  case orb => exact portBFlags_viaOnly s
  case ora => exact (portAFlags_viaOnly s).trans (mapVia_viaOnly _ _)
  case t1cl => exact clearFlags_viaOnly _ s
  case t2cl => exact clearFlags_viaOnly _ s
  case sr => exact (clearFlags_viaOnly _ s).trans (mapVia_viaOnly _ _)
  all_goals exact ViaOnly.refl s

/-- A register write changes the VIA only. -/
theorem viaWrite_viaOnly (reg : ViaReg) (d : Byte) (s : State) : ViaOnly s (viaWrite reg d s) := by
  cases reg
  case orb =>
    exact ((mapVia_viaOnly _ s).trans (portBFlags_viaOnly _)).trans (mapVia_viaOnly _ _)
  case ora =>
    exact ((mapVia_viaOnly _ s).trans (portAFlags_viaOnly _)).trans (mapVia_viaOnly _ _)
  case t1ch => exact writeT1CounterHigh_viaOnly d s
  case t1lh => exact (mapVia_viaOnly _ s).trans (clearFlags_viaOnly _ _)
  case t2ch => exact writeT2CounterHigh_viaOnly d s
  case sr =>
    exact ((mapVia_viaOnly _ s).trans (clearFlags_viaOnly _ _)).trans (mapVia_viaOnly _ _)
  case ifr => exact writeIfr_viaOnly d s
  case ier => exact writeIer_viaOnly d s
  all_goals rfl

-- The tick.

theorem t1Expire_viaOnly (s : State) : ViaOnly s (t1Expire s) := by
  unfold t1Expire
  dsimp only
  split
  · exact ((setFlag_viaOnly _ s).trans (mapVia_viaOnly _ _)).trans (mapVia_viaOnly _ _)
  · exact mapVia_viaOnly _ s

theorem t1Tick_viaOnly (s : State) : ViaOnly s (t1Tick s) := by
  unfold t1Tick
  split
  · exact mapVia_viaOnly _ s
  · split
    · exact t1Expire_viaOnly s
    · exact mapVia_viaOnly _ s

theorem t2Expire_viaOnly (s : State) : ViaOnly s (t2Expire s) := by
  unfold t2Expire
  dsimp only
  split
  · exact ((setFlag_viaOnly _ s).trans (mapVia_viaOnly _ _)).trans (mapVia_viaOnly _ _)
  · exact mapVia_viaOnly _ s

theorem t2Count_viaOnly (s : State) : ViaOnly s (t2Count s).1 := by
  unfold t2Count
  split
  · exact t2Expire_viaOnly s
  · rfl

theorem t2Tick_viaOnly (s : State) : ViaOnly s (t2Tick s).1 := by
  unfold t2Tick
  dsimp only
  split
  · split
    · exact (mapVia_viaOnly _ s).trans (t2Count_viaOnly _)
    · exact mapVia_viaOnly _ s
  · split
    · rfl
    · exact (mapVia_viaOnly _ s).trans (t2Count_viaOnly _)

theorem srDone_viaOnly (s : State) : ViaOnly s (srDone s) :=
  (setFlag_viaOnly _ s).trans (mapVia_viaOnly _ _)

theorem srStep_viaOnly (s : State) : ViaOnly s (srStep s) := by
  unfold srStep
  split
  · split
    · exact mapVia_viaOnly _ s
    · dsimp only
      split
      · exact (mapVia_viaOnly _ s).trans (srDone_viaOnly _)
      · exact mapVia_viaOnly _ s
  · exact ViaOnly.refl s

theorem srClock_viaOnly (e : Bool) (s : State) : ViaOnly s (srClock e s) := by
  unfold srClock
  split
  · exact srStep_viaOnly s
  · split
    · exact srStep_viaOnly s
    · exact ViaOnly.refl s
  · exact ViaOnly.refl s
  · exact ViaOnly.refl s

/-- A tick changes the VIA only. -/
theorem tick_viaOnly (s : State) : ViaOnly s (tick s) :=
  (((mapVia_viaOnly _ s).trans (t1Tick_viaOnly _)).trans (t2Tick_viaOnly _)).trans
    (srClock_viaOnly _ _)

theorem ticks_viaOnly (n : Nat) (s : State) : ViaOnly s (ticks n s) := by
  induction n generalizing s with
  | zero => exact ViaOnly.refl s
  | succ n ih => exact (tick_viaOnly s).trans (ih _)

/-- Ticks add up. -/
theorem ticks_add (m n : Nat) (s : State) : ticks (m + n) s = ticks n (ticks m s) := by
  induction m generalizing s with
  | zero => simp [ticks]
  | succ m ih => rw [Nat.succ_add]; exact ih (tick s)

-- The invariants of 10_state R46.

/-- Recomputing the line establishes (a), and (b) when it held before. -/
theorem updateIrq_line (s : State) : (updateIrq s).via.irqLine = (updateIrq s).via.composite := by
  unfold updateIrq
  dsimp only
  split
  · rfl
  · rename_i h
    simpa using (Eq.symm (by simpa using h))

theorem updateIrq_pending {s : State} (h : s.req.irqPending = s.via.irqLine) :
    (updateIrq s).req.irqPending = (updateIrq s).via.irqLine := by
  unfold updateIrq
  dsimp only
  split
  · rfl
  · exact h

/-- Recomputing the line changes no other field of the VIA. -/
theorem updateIrq_via (s : State) :
    (updateIrq s).via = { s.via with irqLine := s.via.composite } := by
  unfold updateIrq
  dsimp only
  split
  · rfl
  · rename_i h
    have : s.via.composite = s.via.irqLine := by simpa using h
    rw [this]

/-- A function on the VIA record that keeps the line, the flags and the enables, and that cannot break the
shift-register bounds, keeps the invariants. -/
theorem mapVia_invariant {f : Via → Via} {s : State} (h : ViaInvariant s)
    (hline : (f s.via).irqLine = s.via.irqLine) (hcomp : (f s.via).composite = s.via.composite)
    (hle : (f s.via).srCount ≤ 8) (hlt : (f s.via).srActive = true → (f s.via).srCount < 8) :
    ViaInvariant (mapVia f s) :=
  ⟨hline.trans (h.1.trans hcomp.symm), h.2.1.trans hline.symm, hle, hlt⟩

/-- A change of flags or enables followed by the recomputation keeps the invariants. -/
theorem updateIrq_mapVia_invariant {f : Via → Via} {s : State} (h : ViaInvariant s)
    (hline : (f s.via).irqLine = s.via.irqLine)
    (hle : (f s.via).srCount ≤ 8) (hlt : (f s.via).srActive = true → (f s.via).srCount < 8) :
    ViaInvariant (updateIrq (mapVia f s)) := by
  refine ⟨updateIrq_line _, updateIrq_pending (h.2.1.trans hline.symm), ?_, ?_⟩
  · rw [updateIrq_via]; exact hle
  · rw [updateIrq_via]; exact hlt

theorem setFlag_invariant {s : State} (src : IrqSource) (h : ViaInvariant s) :
    ViaInvariant (setFlag src s) :=
  updateIrq_mapVia_invariant h rfl h.2.2.1 h.2.2.2

theorem clearFlags_invariant {s : State} (m : BitVec 7) (h : ViaInvariant s) :
    ViaInvariant (clearFlags m s) :=
  updateIrq_mapVia_invariant h rfl h.2.2.1 h.2.2.2

end Sys2Proof.Machine
end

