-- ==== Sys2Proof/Laws/Ops.lean ====
section
/-! SUPPORT. What each shared operation over memory, the stack and the operands can do, said once. -/

namespace Sys2Proof.Machine

-- Reads.

/-- A read of an address the VIA does not own has no side effect (20_memory R87). -/
theorem load8_plain {s : State} {a : Word} (h : owner s a ≠ .via) : load8 a s = (plainByte s a, s) := by
  unfold load8 plainByte
  split <;> simp_all

theorem load8_via {s : State} {a : Word} (h : owner s a = .via) : load8 a s = viaRead (viaRegOf a) s := by
  unfold load8
  rw [h]

/-- A read of any address changes the VIA only. -/
theorem load8_viaOnly (a : Word) (s : State) : ViaOnly s (load8 a s).2 := by
  unfold load8
  split
  · rfl
  · rfl
  · exact viaReadEffect_viaOnly _ s
  · rfl

theorem load16_viaOnly (a : Word) (s : State) : ViaOnly s (load16 a s).2 :=
  (load8_viaOnly a s).trans (load8_viaOnly (a + 1) _)

theorem load16_plain {s : State} {a : Word} (h : owner s a ≠ .via) (h' : owner s (a + 1) ≠ .via) :
    load16 a s = (plainWord s a, s) := by
  unfold load16 plainWord
  rw [load8_plain h]
  dsimp only
  rw [load8_plain h']

theorem readOperand8_viaOnly (m : Operand8) (s : State) : ViaOnly s (readOperand8 m s).2 := by
  cases m
  case imm => rfl
  all_goals exact load8_viaOnly _ s

theorem readOperand16_viaOnly (m : Operand16) (s : State) : ViaOnly s (readOperand16 m s).2 := by
  cases m
  case imm => rfl
  all_goals exact load16_viaOnly _ s

theorem readAdxOperand_viaOnly (m : AdxOperand) (s : State) : ViaOnly s (readAdxOperand m s).2 := by
  cases m
  case imm => rfl
  case ext a => exact load16_viaOnly a s

-- Writes.

/-- What a sequence of writes at the addresses `as` can do: the CPU record, the clock, the configuration and
every latch but `irqPending` are kept, and every byte of memory at no address of `as` reads as before. -/
structure StoreFrame (s t : State) (as : List Word) : Prop where
  cpu : t.cpu = s.cpu
  clock : t.clock = s.clock
  cfg : t.cfg = s.cfg
  req : t.req = { s.req with irqPending := t.req.irqPending }
  mem : ∀ b : Nat, (∀ a ∈ as, b ≠ a.toNat) → readByte t.mem b = readByte s.mem b

theorem ViaOnly.storeFrame {s t : State} (h : ViaOnly s t) (as : List Word) : StoreFrame s t as :=
  ⟨h.cpu, h.clock, h.cfg, h.req, fun _ _ => by rw [h.mem]⟩

theorem StoreFrame.trans {s t u : State} {as bs : List Word} (h1 : StoreFrame s t as)
    (h2 : StoreFrame t u bs) : StoreFrame s u (as ++ bs) where
  cpu := h2.cpu.trans h1.cpu
  clock := h2.clock.trans h1.clock
  cfg := h2.cfg.trans h1.cfg
  req := by rw [h2.req, h1.req]
  mem := fun b hb =>
    (h2.mem b fun a ha => hb a (List.mem_append_right _ ha)).trans
      (h1.mem b fun a ha => hb a (List.mem_append_left _ ha))

theorem store8_ram {s : State} {a : Word} (h : owner s a = .ram) (v : Byte) :
    store8 a v s = { s with mem := writeByte s.mem a.toNat v } := by
  unfold store8
  rw [h]

/-- A store to ROM or to the stub is dropped (10_state R31, 20_memory R77). -/
theorem store8_dropped {s : State} {a : Word} (h : owner s a = .rom ∨ owner s a = .stub) (v : Byte) :
    store8 a v s = s := by
  unfold store8
  rcases h with h | h <;> rw [h]

theorem store8_via {s : State} {a : Word} (h : owner s a = .via) (v : Byte) :
    store8 a v s = viaWrite (viaRegOf a) v s := by
  unfold store8
  rw [h]

theorem store8_frame (a : Word) (v : Byte) (s : State) : StoreFrame s (store8 a v s) [a] := by
  unfold store8
  split
  · exact ⟨rfl, rfl, rfl, rfl, fun b hb => readByte_writeByte_ne s.mem (hb a (List.mem_singleton_self a)) v⟩
  · exact (viaWrite_viaOnly _ v s).storeFrame _
  · exact (ViaOnly.refl s).storeFrame _
  · exact (ViaOnly.refl s).storeFrame _

theorem store16_frame (a v : Word) (s : State) : StoreFrame s (store16 a v s) [a, a + 1] :=
  (store8_frame a (hiByte v) s).trans (store8_frame (a + 1) (loByte v) _)

/-- A store keeps the canonical form of memory. -/
theorem store8_memory_wf (a : Word) (v : Byte) {s : State} (h : Memory.wf s.mem = true) :
    Memory.wf (store8 a v s).mem = true := by
  unfold store8
  split
  · exact writeByte_wf h a.isLt v
  · rw [(viaWrite_viaOnly _ v s).mem]; exact h
  · exact h
  · exact h

-- The stack.

theorem push8_cpu (v : Byte) (s : State) : (push8 v s).cpu = { s.cpu with sp := s.cpu.sp - 1 } := by
  rw [push8, onCpu_cpu, (store8_frame _ v s).cpu]

/-- A push writes at SP and keeps the clock, the configuration and every other byte. -/
theorem push8_frame (v : Byte) (s : State) :
    StoreFrame { s with cpu := (push8 v s).cpu } (push8 v s) [s.cpu.sp] where
  cpu := rfl
  clock := (store8_frame _ v s).clock
  cfg := (store8_frame _ v s).cfg
  req := (store8_frame _ v s).req
  mem := (store8_frame _ v s).mem

theorem push8_memory_wf (v : Byte) {s : State} (h : Memory.wf s.mem = true) :
    Memory.wf (push8 v s).mem = true := store8_memory_wf _ v h

theorem push16_cpu (v : Word) (s : State) :
    (push16 v s).cpu = { s.cpu with sp := s.cpu.sp - 1 - 1 } := by
  rw [push16, push8_cpu, push8_cpu]

/-- `pushAll` moves SP down by seven and changes no other register (60_exceptions R404). -/
theorem pushAll_cpu (s : State) : (pushAll s).cpu = { s.cpu with sp := s.cpu.sp - 7 } := by
  have h : s.cpu.sp - 1 - 1 - 1 - 1 - 1 - 1 - 1 = s.cpu.sp - 7 := by bv_omega
  simp only [pushAll, push8_cpu, push16_cpu, h]

theorem pull8_cpu (s : State) : (pull8 s).2.cpu = { s.cpu with sp := s.cpu.sp + 1 } := by
  unfold pull8
  dsimp only
  rw [(load8_viaOnly _ _).cpu, onCpu_cpu]

/-- A pull moves SP and otherwise changes the VIA only. -/
theorem pull8_viaOnly (s : State) :
    ViaOnly (onCpu (fun k => { k with sp := k.sp + 1 }) s) (pull8 s).2 := load8_viaOnly _ _

theorem pull16_cpu (s : State) : (pull16 s).2.cpu = { s.cpu with sp := s.cpu.sp + 1 + 1 } := by
  unfold pull16
  dsimp only
  rw [pull8_cpu, pull8_cpu]

-- The fetch.

/-- A fetch moves pc by one and otherwise changes the VIA only. -/
theorem fetch8_cpu (s : State) : (fetch8 s).2.cpu = { s.cpu with pc := s.cpu.pc + 1 } := by
  unfold fetch8
  dsimp only
  rw [onCpu_cpu, (load8_viaOnly _ s).cpu]

theorem fetchMany_length (n : Nat) (s : State) : (fetchMany n s).1.length = n := by
  induction n generalizing s with
  | zero => rfl
  | succ n ih => simp [fetchMany, ih]

/-- The fetch reads as many bytes as the opcode byte fixes (30_encoding R112). -/
theorem fetchBytes_length (s : State) :
    (fetchBytes s).1.length = lengthOf s.cfg.memImm (fetch8 s).1 - 1 + 1 := by
  simp [fetchBytes, fetchMany_length]

-- No access looks at the CPU record.

theorem updateIrq_onCpu (f : Cpu → Cpu) (s : State) : updateIrq (onCpu f s) = onCpu f (updateIrq s) := by
  unfold updateIrq onCpu
  dsimp only
  split <;> rfl

theorem mapVia_onCpu (g : Via → Via) (f : Cpu → Cpu) (s : State) :
    mapVia g (onCpu f s) = onCpu f (mapVia g s) := rfl

theorem clearFlags_onCpu (m : BitVec 7) (f : Cpu → Cpu) (s : State) :
    clearFlags m (onCpu f s) = onCpu f (clearFlags m s) := by
  simp only [clearFlags, mapVia_onCpu, updateIrq_onCpu]

theorem portAFlags_onCpu (f : Cpu → Cpu) (s : State) : portAFlags (onCpu f s) = onCpu f (portAFlags s) :=
  clearFlags_onCpu _ f s

theorem portBFlags_onCpu (f : Cpu → Cpu) (s : State) : portBFlags (onCpu f s) = onCpu f (portBFlags s) :=
  clearFlags_onCpu _ f s

theorem viaReadEffect_onCpu (reg : ViaReg) (f : Cpu → Cpu) (s : State) :
    viaReadEffect reg (onCpu f s) = onCpu f (viaReadEffect reg s) := by
  cases reg <;>
    simp only [viaReadEffect, portAFlags_onCpu, portBFlags_onCpu, clearFlags_onCpu, mapVia_onCpu]

theorem viaWrite_onCpu (reg : ViaReg) (d : Byte) (f : Cpu → Cpu) (s : State) :
    viaWrite reg d (onCpu f s) = onCpu f (viaWrite reg d s) := by
  cases reg <;>
    simp only [viaWrite, writeT1CounterHigh, writeT2CounterHigh, writeIfr, writeIer, onCpu_via, mapVia_onCpu,
      portAFlags_onCpu, portBFlags_onCpu, clearFlags_onCpu, updateIrq_onCpu]

theorem load8_onCpu (a : Word) (f : Cpu → Cpu) (s : State) :
    load8 a (onCpu f s) = ((load8 a s).1, onCpu f (load8 a s).2) := by
  unfold load8 owner
  simp only [onCpu_cfg, onCpu_mem]
  split
  · rfl
  · rfl
  · simp only [viaRead, viaReadEffect_onCpu, onCpu_cfg, onCpu_via]
  · rfl

theorem store8_onCpu (a : Word) (v : Byte) (f : Cpu → Cpu) (s : State) :
    store8 a v (onCpu f s) = onCpu f (store8 a v s) := by
  unfold store8 owner
  simp only [onCpu_cfg, onCpu_mem]
  split
  · rfl
  · exact viaWrite_onCpu _ v f s
  · rfl
  · rfl

theorem load16_onCpu (a : Word) (f : Cpu → Cpu) (s : State) :
    load16 a (onCpu f s) = ((load16 a s).1, onCpu f (load16 a s).2) := by
  simp only [load16, load8_onCpu]

end Sys2Proof.Machine
end

