-- ==== Sys2Proof/Laws/PerInstr.lean ====
section
/-! SUPPORT. Laws stated for every instruction, one lemma per constructor of `Instr`. -/

namespace Sys2Proof.Laws.EncodedLength

/-- A well-formed instruction is encoded in as many bytes as its opcode byte fixes (30_encoding R112). -/
def Statement (i : Instr) : Prop :=
  ∀ memImm : Bool, i.wellFormed memImm = true → (encode i).length = lengthOf memImm i.opcode

theorem ldaa (m : Operand8) : Statement (.ldaa m) := by
  intro b _
  cases m
  · exact (by decide : ∀ b, 2 = lengthOf b 0x86) b
  · exact (by decide : ∀ b, 2 = lengthOf b 0x96) b
  · exact (by decide : ∀ b, 2 = lengthOf b 0xA6) b
  · exact (by decide : ∀ b, 3 = lengthOf b 0xB6) b

theorem ldab (m : Operand8) : Statement (.ldab m) := by
  intro b _
  cases m
  · exact (by decide : ∀ b, 2 = lengthOf b 0xC6) b
  · exact (by decide : ∀ b, 2 = lengthOf b 0xD6) b
  · exact (by decide : ∀ b, 2 = lengthOf b 0xE6) b
  · exact (by decide : ∀ b, 3 = lengthOf b 0xF6) b

theorem staa (m : StoreAddr) : Statement (.staa m) := by
  intro b _
  cases m
  · exact (by decide : ∀ b, 2 = lengthOf b 0x97) b
  · exact (by decide : ∀ b, 2 = lengthOf b 0xA7) b
  · exact (by decide : ∀ b, 3 = lengthOf b 0xB7) b

theorem stab (m : StoreAddr) : Statement (.stab m) := by
  intro b _
  cases m
  · exact (by decide : ∀ b, 2 = lengthOf b 0xD7) b
  · exact (by decide : ∀ b, 2 = lengthOf b 0xE7) b
  · exact (by decide : ∀ b, 3 = lengthOf b 0xF7) b

theorem ldx (m : Operand16) : Statement (.ldx m) := by
  intro b _
  cases m
  · exact (by decide : ∀ b, 3 = lengthOf b 0xCE) b
  · exact (by decide : ∀ b, 2 = lengthOf b 0xDE) b
  · exact (by decide : ∀ b, 2 = lengthOf b 0xEE) b
  · exact (by decide : ∀ b, 3 = lengthOf b 0xFE) b

theorem lds (m : Operand16) : Statement (.lds m) := by
  intro b _
  cases m
  · exact (by decide : ∀ b, 3 = lengthOf b 0x8E) b
  · exact (by decide : ∀ b, 2 = lengthOf b 0x9E) b
  · exact (by decide : ∀ b, 2 = lengthOf b 0xAE) b
  · exact (by decide : ∀ b, 3 = lengthOf b 0xBE) b

theorem stx (m : StoreAddr) : Statement (.stx m) := by
  intro b _
  cases m
  · exact (by decide : ∀ b, 2 = lengthOf b 0xDF) b
  · exact (by decide : ∀ b, 2 = lengthOf b 0xEF) b
  · exact (by decide : ∀ b, 3 = lengthOf b 0xFF) b

theorem sts (m : StoreAddr) : Statement (.sts m) := by
  intro b _
  cases m
  · exact (by decide : ∀ b, 2 = lengthOf b 0x9F) b
  · exact (by decide : ∀ b, 2 = lengthOf b 0xAF) b
  · exact (by decide : ∀ b, 3 = lengthOf b 0xBF) b

theorem tab : Statement (.tab) :=
  fun b _ => (by decide : ∀ b, 1 = lengthOf b 0x16) b

theorem tba : Statement (.tba) :=
  fun b _ => (by decide : ∀ b, 1 = lengthOf b 0x17) b

theorem tap : Statement (.tap) :=
  fun b _ => (by decide : ∀ b, 1 = lengthOf b 0x06) b

theorem tpa : Statement (.tpa) :=
  fun b _ => (by decide : ∀ b, 1 = lengthOf b 0x07) b

theorem tsx : Statement (.tsx) :=
  fun b _ => (by decide : ∀ b, 1 = lengthOf b 0x30) b

theorem txs : Statement (.txs) :=
  fun b _ => (by decide : ∀ b, 1 = lengthOf b 0x35) b

theorem psha : Statement (.psha) :=
  fun b _ => (by decide : ∀ b, 1 = lengthOf b 0x36) b

theorem pshb : Statement (.pshb) :=
  fun b _ => (by decide : ∀ b, 1 = lengthOf b 0x37) b

theorem pula : Statement (.pula) :=
  fun b _ => (by decide : ∀ b, 1 = lengthOf b 0x32) b

theorem pulb : Statement (.pulb) :=
  fun b _ => (by decide : ∀ b, 1 = lengthOf b 0x33) b

theorem adda (m : Operand8) : Statement (.adda m) := by
  intro b _
  cases m
  · exact (by decide : ∀ b, 2 = lengthOf b 0x8B) b
  · exact (by decide : ∀ b, 2 = lengthOf b 0x9B) b
  · exact (by decide : ∀ b, 2 = lengthOf b 0xAB) b
  · exact (by decide : ∀ b, 3 = lengthOf b 0xBB) b

theorem addb (m : Operand8) : Statement (.addb m) := by
  intro b _
  cases m
  · exact (by decide : ∀ b, 2 = lengthOf b 0xCB) b
  · exact (by decide : ∀ b, 2 = lengthOf b 0xDB) b
  · exact (by decide : ∀ b, 2 = lengthOf b 0xEB) b
  · exact (by decide : ∀ b, 3 = lengthOf b 0xFB) b

theorem adca (m : Operand8) : Statement (.adca m) := by
  intro b _
  cases m
  · exact (by decide : ∀ b, 2 = lengthOf b 0x89) b
  · exact (by decide : ∀ b, 2 = lengthOf b 0x99) b
  · exact (by decide : ∀ b, 2 = lengthOf b 0xA9) b
  · exact (by decide : ∀ b, 3 = lengthOf b 0xB9) b

theorem adcb (m : Operand8) : Statement (.adcb m) := by
  intro b _
  cases m
  · exact (by decide : ∀ b, 2 = lengthOf b 0xC9) b
  · exact (by decide : ∀ b, 2 = lengthOf b 0xD9) b
  · exact (by decide : ∀ b, 2 = lengthOf b 0xE9) b
  · exact (by decide : ∀ b, 3 = lengthOf b 0xF9) b

theorem aba : Statement (.aba) :=
  fun b _ => (by decide : ∀ b, 1 = lengthOf b 0x1B) b

theorem suba (m : Operand8) : Statement (.suba m) := by
  intro b _
  cases m
  · exact (by decide : ∀ b, 2 = lengthOf b 0x80) b
  · exact (by decide : ∀ b, 2 = lengthOf b 0x90) b
  · exact (by decide : ∀ b, 2 = lengthOf b 0xA0) b
  · exact (by decide : ∀ b, 3 = lengthOf b 0xB0) b

theorem subb (m : Operand8) : Statement (.subb m) := by
  intro b _
  cases m
  · exact (by decide : ∀ b, 2 = lengthOf b 0xC0) b
  · exact (by decide : ∀ b, 2 = lengthOf b 0xD0) b
  · exact (by decide : ∀ b, 2 = lengthOf b 0xE0) b
  · exact (by decide : ∀ b, 3 = lengthOf b 0xF0) b

theorem sbca (m : Operand8) : Statement (.sbca m) := by
  intro b _
  cases m
  · exact (by decide : ∀ b, 2 = lengthOf b 0x82) b
  · exact (by decide : ∀ b, 2 = lengthOf b 0x92) b
  · exact (by decide : ∀ b, 2 = lengthOf b 0xA2) b
  · exact (by decide : ∀ b, 3 = lengthOf b 0xB2) b

theorem sbcb (m : Operand8) : Statement (.sbcb m) := by
  intro b _
  cases m
  · exact (by decide : ∀ b, 2 = lengthOf b 0xC2) b
  · exact (by decide : ∀ b, 2 = lengthOf b 0xD2) b
  · exact (by decide : ∀ b, 2 = lengthOf b 0xE2) b
  · exact (by decide : ∀ b, 3 = lengthOf b 0xF2) b

theorem sba : Statement (.sba) :=
  fun b _ => (by decide : ∀ b, 1 = lengthOf b 0x10) b

theorem cmpa (m : Operand8) : Statement (.cmpa m) := by
  intro b _
  cases m
  · exact (by decide : ∀ b, 2 = lengthOf b 0x81) b
  · exact (by decide : ∀ b, 2 = lengthOf b 0x91) b
  · exact (by decide : ∀ b, 2 = lengthOf b 0xA1) b
  · exact (by decide : ∀ b, 3 = lengthOf b 0xB1) b

theorem cmpb (m : Operand8) : Statement (.cmpb m) := by
  intro b _
  cases m
  · exact (by decide : ∀ b, 2 = lengthOf b 0xC1) b
  · exact (by decide : ∀ b, 2 = lengthOf b 0xD1) b
  · exact (by decide : ∀ b, 2 = lengthOf b 0xE1) b
  · exact (by decide : ∀ b, 3 = lengthOf b 0xF1) b

theorem cba : Statement (.cba) :=
  fun b _ => (by decide : ∀ b, 1 = lengthOf b 0x11) b

theorem nega : Statement (.nega) :=
  fun b _ => (by decide : ∀ b, 1 = lengthOf b 0x40) b

theorem negb : Statement (.negb) :=
  fun b _ => (by decide : ∀ b, 1 = lengthOf b 0x50) b

theorem neg (m : MemAddr) : Statement (.neg m) := by
  intro b _
  cases m
  · exact (by decide : ∀ b, 2 = lengthOf b 0x60) b
  · exact (by decide : ∀ b, 3 = lengthOf b 0x70) b

theorem inca : Statement (.inca) :=
  fun b _ => (by decide : ∀ b, 1 = lengthOf b 0x4C) b

theorem incb : Statement (.incb) :=
  fun b _ => (by decide : ∀ b, 1 = lengthOf b 0x5C) b

theorem inc (m : MemAddr) : Statement (.inc m) := by
  intro b _
  cases m
  · exact (by decide : ∀ b, 2 = lengthOf b 0x6C) b
  · exact (by decide : ∀ b, 3 = lengthOf b 0x7C) b

theorem deca : Statement (.deca) :=
  fun b _ => (by decide : ∀ b, 1 = lengthOf b 0x4A) b

theorem decb : Statement (.decb) :=
  fun b _ => (by decide : ∀ b, 1 = lengthOf b 0x5A) b

theorem dec (m : MemAddr) : Statement (.dec m) := by
  intro b _
  cases m
  · exact (by decide : ∀ b, 2 = lengthOf b 0x6A) b
  · exact (by decide : ∀ b, 3 = lengthOf b 0x7A) b

theorem clra : Statement (.clra) :=
  fun b _ => (by decide : ∀ b, 1 = lengthOf b 0x4F) b

theorem clrb : Statement (.clrb) :=
  fun b _ => (by decide : ∀ b, 1 = lengthOf b 0x5F) b

theorem clr (m : MemAddr) : Statement (.clr m) := by
  intro b _
  cases m
  · exact (by decide : ∀ b, 2 = lengthOf b 0x6F) b
  · exact (by decide : ∀ b, 3 = lengthOf b 0x7F) b

theorem tsta : Statement (.tsta) :=
  fun b _ => (by decide : ∀ b, 1 = lengthOf b 0x4D) b

theorem tstb : Statement (.tstb) :=
  fun b _ => (by decide : ∀ b, 1 = lengthOf b 0x5D) b

theorem tst (m : MemAddr) : Statement (.tst m) := by
  intro b _
  cases m
  · exact (by decide : ∀ b, 2 = lengthOf b 0x6D) b
  · exact (by decide : ∀ b, 3 = lengthOf b 0x7D) b

theorem daa : Statement (.daa) :=
  fun b _ => (by decide : ∀ b, 1 = lengthOf b 0x19) b

theorem inx : Statement (.inx) :=
  fun b _ => (by decide : ∀ b, 1 = lengthOf b 0x08) b

theorem dex : Statement (.dex) :=
  fun b _ => (by decide : ∀ b, 1 = lengthOf b 0x09) b

theorem ins : Statement (.ins) :=
  fun b _ => (by decide : ∀ b, 1 = lengthOf b 0x31) b

theorem des : Statement (.des) :=
  fun b _ => (by decide : ∀ b, 1 = lengthOf b 0x34) b

theorem cpx (m : Operand16) : Statement (.cpx m) := by
  intro b _
  cases m
  · exact (by decide : ∀ b, 3 = lengthOf b 0x8C) b
  · exact (by decide : ∀ b, 2 = lengthOf b 0x9C) b
  · exact (by decide : ∀ b, 2 = lengthOf b 0xAC) b
  · exact (by decide : ∀ b, 3 = lengthOf b 0xBC) b

theorem adx (m : AdxOperand) : Statement (.adx m) := by
  intro b _
  cases m
  · exact (by decide : ∀ b, 2 = lengthOf b 0xEC) b
  · exact (by decide : ∀ b, 3 = lengthOf b 0xFC) b

theorem anda (m : Operand8) : Statement (.anda m) := by
  intro b _
  cases m
  · exact (by decide : ∀ b, 2 = lengthOf b 0x84) b
  · exact (by decide : ∀ b, 2 = lengthOf b 0x94) b
  · exact (by decide : ∀ b, 2 = lengthOf b 0xA4) b
  · exact (by decide : ∀ b, 3 = lengthOf b 0xB4) b

theorem andb (m : Operand8) : Statement (.andb m) := by
  intro b _
  cases m
  · exact (by decide : ∀ b, 2 = lengthOf b 0xC4) b
  · exact (by decide : ∀ b, 2 = lengthOf b 0xD4) b
  · exact (by decide : ∀ b, 2 = lengthOf b 0xE4) b
  · exact (by decide : ∀ b, 3 = lengthOf b 0xF4) b

theorem bita (m : Operand8) : Statement (.bita m) := by
  intro b _
  cases m
  · exact (by decide : ∀ b, 2 = lengthOf b 0x85) b
  · exact (by decide : ∀ b, 2 = lengthOf b 0x95) b
  · exact (by decide : ∀ b, 2 = lengthOf b 0xA5) b
  · exact (by decide : ∀ b, 3 = lengthOf b 0xB5) b

theorem bitb (m : Operand8) : Statement (.bitb m) := by
  intro b _
  cases m
  · exact (by decide : ∀ b, 2 = lengthOf b 0xC5) b
  · exact (by decide : ∀ b, 2 = lengthOf b 0xD5) b
  · exact (by decide : ∀ b, 2 = lengthOf b 0xE5) b
  · exact (by decide : ∀ b, 3 = lengthOf b 0xF5) b

theorem oraa (m : Operand8) : Statement (.oraa m) := by
  intro b _
  cases m
  · exact (by decide : ∀ b, 2 = lengthOf b 0x8A) b
  · exact (by decide : ∀ b, 2 = lengthOf b 0x9A) b
  · exact (by decide : ∀ b, 2 = lengthOf b 0xAA) b
  · exact (by decide : ∀ b, 3 = lengthOf b 0xBA) b

theorem orab (m : Operand8) : Statement (.orab m) := by
  intro b _
  cases m
  · exact (by decide : ∀ b, 2 = lengthOf b 0xCA) b
  · exact (by decide : ∀ b, 2 = lengthOf b 0xDA) b
  · exact (by decide : ∀ b, 2 = lengthOf b 0xEA) b
  · exact (by decide : ∀ b, 3 = lengthOf b 0xFA) b

theorem eora (m : Operand8) : Statement (.eora m) := by
  intro b _
  cases m
  · exact (by decide : ∀ b, 2 = lengthOf b 0x88) b
  · exact (by decide : ∀ b, 2 = lengthOf b 0x98) b
  · exact (by decide : ∀ b, 2 = lengthOf b 0xA8) b
  · exact (by decide : ∀ b, 3 = lengthOf b 0xB8) b

theorem eorb (m : Operand8) : Statement (.eorb m) := by
  intro b _
  cases m
  · exact (by decide : ∀ b, 2 = lengthOf b 0xC8) b
  · exact (by decide : ∀ b, 2 = lengthOf b 0xD8) b
  · exact (by decide : ∀ b, 2 = lengthOf b 0xE8) b
  · exact (by decide : ∀ b, 3 = lengthOf b 0xF8) b

theorem coma : Statement (.coma) :=
  fun b _ => (by decide : ∀ b, 1 = lengthOf b 0x43) b

theorem comb : Statement (.comb) :=
  fun b _ => (by decide : ∀ b, 1 = lengthOf b 0x53) b

theorem com (m : MemAddr) : Statement (.com m) := by
  intro b _
  cases m
  · exact (by decide : ∀ b, 2 = lengthOf b 0x63) b
  · exact (by decide : ∀ b, 3 = lengthOf b 0x73) b

theorem asla : Statement (.asla) :=
  fun b _ => (by decide : ∀ b, 1 = lengthOf b 0x48) b

theorem aslb : Statement (.aslb) :=
  fun b _ => (by decide : ∀ b, 1 = lengthOf b 0x58) b

theorem asl (m : MemAddr) : Statement (.asl m) := by
  intro b _
  cases m
  · exact (by decide : ∀ b, 2 = lengthOf b 0x68) b
  · exact (by decide : ∀ b, 3 = lengthOf b 0x78) b

theorem asra : Statement (.asra) :=
  fun b _ => (by decide : ∀ b, 1 = lengthOf b 0x47) b

theorem asrb : Statement (.asrb) :=
  fun b _ => (by decide : ∀ b, 1 = lengthOf b 0x57) b

theorem asr (m : MemAddr) : Statement (.asr m) := by
  intro b _
  cases m
  · exact (by decide : ∀ b, 2 = lengthOf b 0x67) b
  · exact (by decide : ∀ b, 3 = lengthOf b 0x77) b

theorem lsra : Statement (.lsra) :=
  fun b _ => (by decide : ∀ b, 1 = lengthOf b 0x44) b

theorem lsrb : Statement (.lsrb) :=
  fun b _ => (by decide : ∀ b, 1 = lengthOf b 0x54) b

theorem lsr (m : MemAddr) : Statement (.lsr m) := by
  intro b _
  cases m
  · exact (by decide : ∀ b, 2 = lengthOf b 0x64) b
  · exact (by decide : ∀ b, 3 = lengthOf b 0x74) b

theorem rola : Statement (.rola) :=
  fun b _ => (by decide : ∀ b, 1 = lengthOf b 0x49) b

theorem rolb : Statement (.rolb) :=
  fun b _ => (by decide : ∀ b, 1 = lengthOf b 0x59) b

theorem rol (m : MemAddr) : Statement (.rol m) := by
  intro b _
  cases m
  · exact (by decide : ∀ b, 2 = lengthOf b 0x69) b
  · exact (by decide : ∀ b, 3 = lengthOf b 0x79) b

theorem rora : Statement (.rora) :=
  fun b _ => (by decide : ∀ b, 1 = lengthOf b 0x46) b

theorem rorb : Statement (.rorb) :=
  fun b _ => (by decide : ∀ b, 1 = lengthOf b 0x56) b

theorem ror (m : MemAddr) : Statement (.ror m) := by
  intro b _
  cases m
  · exact (by decide : ∀ b, 2 = lengthOf b 0x66) b
  · exact (by decide : ∀ b, 3 = lengthOf b 0x76) b

theorem nim (imm off : Byte) : Statement (.nim imm off) := by
  intro memImm h
  cases memImm
  · cases h
  · exact (by decide : 3 = lengthOf true 0x71)

theorem oim (imm off : Byte) : Statement (.oim imm off) := by
  intro memImm h
  cases memImm
  · cases h
  · exact (by decide : 3 = lengthOf true 0x72)

theorem xim (imm off : Byte) : Statement (.xim imm off) := by
  intro memImm h
  cases memImm
  · cases h
  · exact (by decide : 3 = lengthOf true 0x75)

theorem tmm (imm off : Byte) : Statement (.tmm imm off) := by
  intro memImm h
  cases memImm
  · cases h
  · exact (by decide : 3 = lengthOf true 0x7B)

theorem bra (rel : Byte) : Statement (.bra rel) :=
  fun b _ => (by decide : ∀ b, 2 = lengthOf b 0x20) b

theorem bhi (rel : Byte) : Statement (.bhi rel) :=
  fun b _ => (by decide : ∀ b, 2 = lengthOf b 0x22) b

theorem bls (rel : Byte) : Statement (.bls rel) :=
  fun b _ => (by decide : ∀ b, 2 = lengthOf b 0x23) b

theorem bcc (rel : Byte) : Statement (.bcc rel) :=
  fun b _ => (by decide : ∀ b, 2 = lengthOf b 0x24) b

theorem bcs (rel : Byte) : Statement (.bcs rel) :=
  fun b _ => (by decide : ∀ b, 2 = lengthOf b 0x25) b

theorem bne (rel : Byte) : Statement (.bne rel) :=
  fun b _ => (by decide : ∀ b, 2 = lengthOf b 0x26) b

theorem beq (rel : Byte) : Statement (.beq rel) :=
  fun b _ => (by decide : ∀ b, 2 = lengthOf b 0x27) b

theorem bvc (rel : Byte) : Statement (.bvc rel) :=
  fun b _ => (by decide : ∀ b, 2 = lengthOf b 0x28) b

theorem bvs (rel : Byte) : Statement (.bvs rel) :=
  fun b _ => (by decide : ∀ b, 2 = lengthOf b 0x29) b

theorem bpl (rel : Byte) : Statement (.bpl rel) :=
  fun b _ => (by decide : ∀ b, 2 = lengthOf b 0x2A) b

theorem bmi (rel : Byte) : Statement (.bmi rel) :=
  fun b _ => (by decide : ∀ b, 2 = lengthOf b 0x2B) b

theorem bge (rel : Byte) : Statement (.bge rel) :=
  fun b _ => (by decide : ∀ b, 2 = lengthOf b 0x2C) b

theorem blt (rel : Byte) : Statement (.blt rel) :=
  fun b _ => (by decide : ∀ b, 2 = lengthOf b 0x2D) b

theorem bgt (rel : Byte) : Statement (.bgt rel) :=
  fun b _ => (by decide : ∀ b, 2 = lengthOf b 0x2E) b

theorem ble (rel : Byte) : Statement (.ble rel) :=
  fun b _ => (by decide : ∀ b, 2 = lengthOf b 0x2F) b

theorem jmp (m : MemAddr) : Statement (.jmp m) := by
  intro b _
  cases m
  · exact (by decide : ∀ b, 2 = lengthOf b 0x6E) b
  · exact (by decide : ∀ b, 3 = lengthOf b 0x7E) b

theorem jsr (m : MemAddr) : Statement (.jsr m) := by
  intro b _
  cases m
  · exact (by decide : ∀ b, 2 = lengthOf b 0xAD) b
  · exact (by decide : ∀ b, 3 = lengthOf b 0xBD) b

theorem bsr (rel : Byte) : Statement (.bsr rel) :=
  fun b _ => (by decide : ∀ b, 2 = lengthOf b 0x8D) b

theorem rts : Statement (.rts) :=
  fun b _ => (by decide : ∀ b, 1 = lengthOf b 0x39) b

theorem nop : Statement (.nop) :=
  fun b _ => (by decide : ∀ b, 1 = lengthOf b 0x01) b

theorem clc : Statement (.clc) :=
  fun b _ => (by decide : ∀ b, 1 = lengthOf b 0x0C) b

theorem sec : Statement (.sec) :=
  fun b _ => (by decide : ∀ b, 1 = lengthOf b 0x0D) b

theorem clv : Statement (.clv) :=
  fun b _ => (by decide : ∀ b, 1 = lengthOf b 0x0A) b

theorem sev : Statement (.sev) :=
  fun b _ => (by decide : ∀ b, 1 = lengthOf b 0x0B) b

theorem cli : Statement (.cli) :=
  fun b _ => (by decide : ∀ b, 1 = lengthOf b 0x0E) b

theorem sei : Statement (.sei) :=
  fun b _ => (by decide : ∀ b, 1 = lengthOf b 0x0F) b

theorem swi : Statement (.swi) :=
  fun b _ => (by decide : ∀ b, 1 = lengthOf b 0x3F) b

theorem rti : Statement (.rti) :=
  fun b _ => (by decide : ∀ b, 1 = lengthOf b 0x3B) b

theorem wai : Statement (.wai) :=
  fun b _ => (by decide : ∀ b, 1 = lengthOf b 0x3E) b

theorem unrecognised_lengths :
    ∀ op : Byte, ∀ memImm : Bool, (Instr.unrecognised op).wellFormed memImm = true →
      1 = lengthOf memImm op := by decide

theorem unrecognised (op : Byte) : Statement (.unrecognised op) := fun memImm h =>
  unrecognised_lengths op memImm h

end Sys2Proof.Laws.EncodedLength
end

