-- ==== Sys2Proof/Machine/Assembly.lean ====
section
/-! DEFINITION. The operand syntax of the assembler (30_encoding R113): which operand form an operand as
written stands for. It chooses among encodings and no step of the machine uses it. There are no
pseudo-instructions (R114). -/

namespace Sys2Proof.Machine

/-- An operand as written; a number may be any natural number. -/
inductive AsmOperand where
  /-- `#value`. -/
  | hash (v : Nat)
  /-- `value`. -/
  | plain (v : Nat)
  /-- `>value`. -/
  | forced (v : Nat)
  /-- `value,X`. -/
  | indexed (v : Nat)
  /-- `X` or `,X`. -/
  | bareX
  /-- `#value,offset,X`. -/
  | hashIndexed (v off : Nat)
  deriving DecidableEq, Repr

/-- A number that fits a byte. -/
def asmByte (v : Nat) : Option Byte := if v < 0x100 then some (BitVec.ofNat 8 v) else none

/-- A number that fits a word. -/
def asmWord (v : Nat) : Option Word := if v < 0x10000 then some (BitVec.ofNat 16 v) else none

/-- The forms IDX and EXT of an instruction without a DIR form: "the EXT form for any address" (R113). -/
def asmMemAddr : AsmOperand → Option MemAddr
  | .plain v | .forced v => (asmWord v).map .ext
  | .indexed v => (asmByte v).map .idx
  | .bareX => some (.idx 0)
  | .hash _ | .hashIndexed _ _ => none

/-- The forms DIR, IDX and EXT: a plain value below 0x100 is DIR (R113). -/
def asmStoreAddr (o : AsmOperand) : Option StoreAddr :=
  match o with
  | .plain v => if v < 0x100 then some (.dir (BitVec.ofNat 8 v)) else (asmWord v).map .ext
  | _ =>
    (asmMemAddr o).map fun
      | .idx off => .idx off
      | .ext a => .ext a

/-- The forms IMM8, DIR, IDX and EXT (R113). -/
def asmOperand8 (o : AsmOperand) : Option Operand8 :=
  match o with
  | .hash v => (asmByte v).map .imm
  | _ =>
    (asmStoreAddr o).map fun
      | .dir a => .dir a
      | .idx off => .idx off
      | .ext a => .ext a

/-- The forms IMM16, DIR, IDX and EXT (R113). -/
def asmOperand16 (o : AsmOperand) : Option Operand16 :=
  match o with
  | .hash v => (asmWord v).map .imm
  | _ =>
    (asmStoreAddr o).map fun
      | .dir a => .dir a
      | .idx off => .idx off
      | .ext a => .ext a

/-- The immediate and the offset byte of NIM, OIM, XIM, TMM (R113). -/
def asmImmIndexed : AsmOperand → Option (Byte × Byte)
  | .hashIndexed v off =>
    match asmByte v, asmByte off with
    | some m, some x => some (m, x)
    | _, _ => none
  | _ => none

/-- The byte a branch or BSR at an address stores for a label: `label - (address of the branch + 2)`, no
byte for a distance outside -128 to 127 (R113). -/
def asmRel (branch label : Word) : Option Byte :=
  let d : Int := (label.toNat : Int) - ((branch.toNat : Int) + 2)
  if -128 ≤ d ∧ d ≤ 127 then some (BitVec.ofInt 8 d) else none

end Sys2Proof.Machine
end

