-- ==== Sys2Proof/Tests/Slice0.lean ====
section
/-! SUPPORT. Tests: ill-formed terms, words of every row of the opcode map, one step of every instruction
(the "Example" of its rule unless said otherwise), and a witness for every statement with hypotheses. -/

namespace Sys2Proof.Tests

open Sys2Proof Sys2Proof.Machine

-- The kernel evaluates these theorems one after another.
set_option Elab.async false

-- Ill-formed terms: an `unrecognised` byte that is an instruction, and the group the switch removed.

theorem test_wellformed_refuses_recognised_byte : (Instr.unrecognised 0x86).wellFormed true = false := by decide

theorem test_wellformed_refuses_memimm_byte_as_unrecognised :
    (Instr.unrecognised 0x71).wellFormed true = false ∧ (Instr.unrecognised 0x71).wellFormed false = true := by
  decide

theorem test_wellformed_refuses_absent_group :
    (Instr.nim 1 2).wellFormed false = false ∧ (Instr.oim 1 2).wellFormed false = false ∧
    (Instr.xim 1 2).wellFormed false = false ∧ (Instr.tmm 1 2).wellFormed false = false := by decide

-- Decoding: every row of 30_encoding R109, its operand bytes 0x12 and 0x34.

/-- The bytes decode to the instruction, all of them used, and the instruction encodes to the bytes. -/
def decodesTo (bytes : List Byte) (i : Instr) : Bool :=
  match decode true bytes with
  | .ok (j, []) => decide (j = i) && decide (encode i = bytes)
  | .ok (_, _ :: _) => false
  | .error _ => false

theorem test_decode_moves_1 :
    (decodesTo [0x86, 0x12] (.ldaa (.imm 0x12)) && decodesTo [0x96, 0x12] (.ldaa (.dir 0x12)) &&
      decodesTo [0xA6, 0x12] (.ldaa (.idx 0x12)) && decodesTo [0xB6, 0x12, 0x34] (.ldaa (.ext 0x1234)) &&
      decodesTo [0xC6, 0x12] (.ldab (.imm 0x12)) && decodesTo [0xD6, 0x12] (.ldab (.dir 0x12)) &&
      decodesTo [0xE6, 0x12] (.ldab (.idx 0x12)) && decodesTo [0xF6, 0x12, 0x34] (.ldab (.ext 0x1234)) &&
      decodesTo [0x97, 0x12] (.staa (.dir 0x12)) && decodesTo [0xA7, 0x12] (.staa (.idx 0x12)) &&
      decodesTo [0xB7, 0x12, 0x34] (.staa (.ext 0x1234)) && decodesTo [0xD7, 0x12] (.stab (.dir 0x12)) &&
      decodesTo [0xE7, 0x12] (.stab (.idx 0x12)) && decodesTo [0xF7, 0x12, 0x34] (.stab (.ext 0x1234)) &&
      decodesTo [0xCE, 0x12, 0x34] (.ldx (.imm 0x1234)) && decodesTo [0xDE, 0x12] (.ldx (.dir 0x12)) &&
      decodesTo [0xEE, 0x12] (.ldx (.idx 0x12)) && decodesTo [0xFE, 0x12, 0x34] (.ldx (.ext 0x1234)) &&
      decodesTo [0x8E, 0x12, 0x34] (.lds (.imm 0x1234)) && decodesTo [0x9E, 0x12] (.lds (.dir 0x12)) &&
      decodesTo [0xAE, 0x12] (.lds (.idx 0x12)) && decodesTo [0xBE, 0x12, 0x34] (.lds (.ext 0x1234)) &&
      decodesTo [0xDF, 0x12] (.stx (.dir 0x12)) &&
      decodesTo [0xEF, 0x12] (.stx (.idx 0x12))) = true := by decide

theorem test_decode_moves_2 :
    (decodesTo [0xFF, 0x12, 0x34] (.stx (.ext 0x1234)) && decodesTo [0x9F, 0x12] (.sts (.dir 0x12)) &&
      decodesTo [0xAF, 0x12] (.sts (.idx 0x12)) && decodesTo [0xBF, 0x12, 0x34] (.sts (.ext 0x1234)) &&
      decodesTo [0x16] .tab && decodesTo [0x17] .tba && decodesTo [0x06] .tap && decodesTo [0x07] .tpa &&
      decodesTo [0x30] .tsx && decodesTo [0x35] .txs && decodesTo [0x36] .psha && decodesTo [0x37] .pshb &&
      decodesTo [0x32] .pula && decodesTo [0x33] .pulb) = true := by decide

theorem test_decode_arithmetic_1 :
    (decodesTo [0x8B, 0x12] (.adda (.imm 0x12)) && decodesTo [0x9B, 0x12] (.adda (.dir 0x12)) &&
      decodesTo [0xAB, 0x12] (.adda (.idx 0x12)) && decodesTo [0xBB, 0x12, 0x34] (.adda (.ext 0x1234)) &&
      decodesTo [0xCB, 0x12] (.addb (.imm 0x12)) && decodesTo [0xDB, 0x12] (.addb (.dir 0x12)) &&
      decodesTo [0xEB, 0x12] (.addb (.idx 0x12)) && decodesTo [0xFB, 0x12, 0x34] (.addb (.ext 0x1234)) &&
      decodesTo [0x89, 0x12] (.adca (.imm 0x12)) && decodesTo [0x99, 0x12] (.adca (.dir 0x12)) &&
      decodesTo [0xA9, 0x12] (.adca (.idx 0x12)) && decodesTo [0xB9, 0x12, 0x34] (.adca (.ext 0x1234)) &&
      decodesTo [0xC9, 0x12] (.adcb (.imm 0x12)) && decodesTo [0xD9, 0x12] (.adcb (.dir 0x12)) &&
      decodesTo [0xE9, 0x12] (.adcb (.idx 0x12)) && decodesTo [0xF9, 0x12, 0x34] (.adcb (.ext 0x1234)) &&
      decodesTo [0x1B] .aba && decodesTo [0x80, 0x12] (.suba (.imm 0x12)) &&
      decodesTo [0x90, 0x12] (.suba (.dir 0x12)) && decodesTo [0xA0, 0x12] (.suba (.idx 0x12)) &&
      decodesTo [0xB0, 0x12, 0x34] (.suba (.ext 0x1234)) && decodesTo [0xC0, 0x12] (.subb (.imm 0x12)) &&
      decodesTo [0xD0, 0x12] (.subb (.dir 0x12)) &&
      decodesTo [0xE0, 0x12] (.subb (.idx 0x12))) = true := by decide

theorem test_decode_arithmetic_2 :
    (decodesTo [0xF0, 0x12, 0x34] (.subb (.ext 0x1234)) && decodesTo [0x82, 0x12] (.sbca (.imm 0x12)) &&
      decodesTo [0x92, 0x12] (.sbca (.dir 0x12)) && decodesTo [0xA2, 0x12] (.sbca (.idx 0x12)) &&
      decodesTo [0xB2, 0x12, 0x34] (.sbca (.ext 0x1234)) && decodesTo [0xC2, 0x12] (.sbcb (.imm 0x12)) &&
      decodesTo [0xD2, 0x12] (.sbcb (.dir 0x12)) && decodesTo [0xE2, 0x12] (.sbcb (.idx 0x12)) &&
      decodesTo [0xF2, 0x12, 0x34] (.sbcb (.ext 0x1234)) && decodesTo [0x10] .sba &&
      decodesTo [0x81, 0x12] (.cmpa (.imm 0x12)) && decodesTo [0x91, 0x12] (.cmpa (.dir 0x12)) &&
      decodesTo [0xA1, 0x12] (.cmpa (.idx 0x12)) && decodesTo [0xB1, 0x12, 0x34] (.cmpa (.ext 0x1234)) &&
      decodesTo [0xC1, 0x12] (.cmpb (.imm 0x12)) && decodesTo [0xD1, 0x12] (.cmpb (.dir 0x12)) &&
      decodesTo [0xE1, 0x12] (.cmpb (.idx 0x12)) && decodesTo [0xF1, 0x12, 0x34] (.cmpb (.ext 0x1234)) &&
      decodesTo [0x11] .cba && decodesTo [0x40] .nega && decodesTo [0x50] .negb &&
      decodesTo [0x60, 0x12] (.neg (.idx 0x12)) && decodesTo [0x70, 0x12, 0x34] (.neg (.ext 0x1234)) &&
      decodesTo [0x4C] .inca) = true := by decide

theorem test_decode_arithmetic_3 :
    (decodesTo [0x5C] .incb && decodesTo [0x6C, 0x12] (.inc (.idx 0x12)) &&
      decodesTo [0x7C, 0x12, 0x34] (.inc (.ext 0x1234)) && decodesTo [0x4A] .deca && decodesTo [0x5A] .decb &&
      decodesTo [0x6A, 0x12] (.dec (.idx 0x12)) && decodesTo [0x7A, 0x12, 0x34] (.dec (.ext 0x1234)) &&
      decodesTo [0x4F] .clra && decodesTo [0x5F] .clrb && decodesTo [0x6F, 0x12] (.clr (.idx 0x12)) &&
      decodesTo [0x7F, 0x12, 0x34] (.clr (.ext 0x1234)) && decodesTo [0x4D] .tsta && decodesTo [0x5D] .tstb &&
      decodesTo [0x6D, 0x12] (.tst (.idx 0x12)) && decodesTo [0x7D, 0x12, 0x34] (.tst (.ext 0x1234)) &&
      decodesTo [0x19] .daa && decodesTo [0x08] .inx && decodesTo [0x09] .dex && decodesTo [0x31] .ins &&
      decodesTo [0x34] .des && decodesTo [0x8C, 0x12, 0x34] (.cpx (.imm 0x1234)) &&
      decodesTo [0x9C, 0x12] (.cpx (.dir 0x12)) && decodesTo [0xAC, 0x12] (.cpx (.idx 0x12)) &&
      decodesTo [0xBC, 0x12, 0x34] (.cpx (.ext 0x1234))) = true := by decide

theorem test_decode_arithmetic_4 :
    (decodesTo [0xEC, 0x12] (.adx (.imm 0x12)) &&
      decodesTo [0xFC, 0x12, 0x34] (.adx (.ext 0x1234))) = true := by decide

theorem test_decode_logic_1 :
    (decodesTo [0x84, 0x12] (.anda (.imm 0x12)) && decodesTo [0x94, 0x12] (.anda (.dir 0x12)) &&
      decodesTo [0xA4, 0x12] (.anda (.idx 0x12)) && decodesTo [0xB4, 0x12, 0x34] (.anda (.ext 0x1234)) &&
      decodesTo [0xC4, 0x12] (.andb (.imm 0x12)) && decodesTo [0xD4, 0x12] (.andb (.dir 0x12)) &&
      decodesTo [0xE4, 0x12] (.andb (.idx 0x12)) && decodesTo [0xF4, 0x12, 0x34] (.andb (.ext 0x1234)) &&
      decodesTo [0x85, 0x12] (.bita (.imm 0x12)) && decodesTo [0x95, 0x12] (.bita (.dir 0x12)) &&
      decodesTo [0xA5, 0x12] (.bita (.idx 0x12)) && decodesTo [0xB5, 0x12, 0x34] (.bita (.ext 0x1234)) &&
      decodesTo [0xC5, 0x12] (.bitb (.imm 0x12)) && decodesTo [0xD5, 0x12] (.bitb (.dir 0x12)) &&
      decodesTo [0xE5, 0x12] (.bitb (.idx 0x12)) && decodesTo [0xF5, 0x12, 0x34] (.bitb (.ext 0x1234)) &&
      decodesTo [0x8A, 0x12] (.oraa (.imm 0x12)) && decodesTo [0x9A, 0x12] (.oraa (.dir 0x12)) &&
      decodesTo [0xAA, 0x12] (.oraa (.idx 0x12)) && decodesTo [0xBA, 0x12, 0x34] (.oraa (.ext 0x1234)) &&
      decodesTo [0xCA, 0x12] (.orab (.imm 0x12)) && decodesTo [0xDA, 0x12] (.orab (.dir 0x12)) &&
      decodesTo [0xEA, 0x12] (.orab (.idx 0x12)) &&
      decodesTo [0xFA, 0x12, 0x34] (.orab (.ext 0x1234))) = true := by decide

theorem test_decode_logic_2 :
    (decodesTo [0x88, 0x12] (.eora (.imm 0x12)) && decodesTo [0x98, 0x12] (.eora (.dir 0x12)) &&
      decodesTo [0xA8, 0x12] (.eora (.idx 0x12)) && decodesTo [0xB8, 0x12, 0x34] (.eora (.ext 0x1234)) &&
      decodesTo [0xC8, 0x12] (.eorb (.imm 0x12)) && decodesTo [0xD8, 0x12] (.eorb (.dir 0x12)) &&
      decodesTo [0xE8, 0x12] (.eorb (.idx 0x12)) && decodesTo [0xF8, 0x12, 0x34] (.eorb (.ext 0x1234)) &&
      decodesTo [0x43] .coma && decodesTo [0x53] .comb && decodesTo [0x63, 0x12] (.com (.idx 0x12)) &&
      decodesTo [0x73, 0x12, 0x34] (.com (.ext 0x1234)) && decodesTo [0x48] .asla && decodesTo [0x58] .aslb &&
      decodesTo [0x68, 0x12] (.asl (.idx 0x12)) && decodesTo [0x78, 0x12, 0x34] (.asl (.ext 0x1234)) &&
      decodesTo [0x47] .asra && decodesTo [0x57] .asrb && decodesTo [0x67, 0x12] (.asr (.idx 0x12)) &&
      decodesTo [0x77, 0x12, 0x34] (.asr (.ext 0x1234)) && decodesTo [0x44] .lsra && decodesTo [0x54] .lsrb &&
      decodesTo [0x64, 0x12] (.lsr (.idx 0x12)) &&
      decodesTo [0x74, 0x12, 0x34] (.lsr (.ext 0x1234))) = true := by decide

theorem test_decode_logic_3 :
    (decodesTo [0x49] .rola && decodesTo [0x59] .rolb && decodesTo [0x69, 0x12] (.rol (.idx 0x12)) &&
      decodesTo [0x79, 0x12, 0x34] (.rol (.ext 0x1234)) && decodesTo [0x46] .rora && decodesTo [0x56] .rorb &&
      decodesTo [0x66, 0x12] (.ror (.idx 0x12)) && decodesTo [0x76, 0x12, 0x34] (.ror (.ext 0x1234)) &&
      decodesTo [0x71, 0x12, 0x34] (.nim 0x12 0x34) && decodesTo [0x72, 0x12, 0x34] (.oim 0x12 0x34) &&
      decodesTo [0x75, 0x12, 0x34] (.xim 0x12 0x34) &&
      decodesTo [0x7B, 0x12, 0x34] (.tmm 0x12 0x34)) = true := by decide

theorem test_decode_branches :
    (decodesTo [0x20, 0x12] (.bra 0x12) && decodesTo [0x22, 0x12] (.bhi 0x12) &&
      decodesTo [0x23, 0x12] (.bls 0x12) && decodesTo [0x24, 0x12] (.bcc 0x12) &&
      decodesTo [0x25, 0x12] (.bcs 0x12) && decodesTo [0x26, 0x12] (.bne 0x12) &&
      decodesTo [0x27, 0x12] (.beq 0x12) && decodesTo [0x28, 0x12] (.bvc 0x12) &&
      decodesTo [0x29, 0x12] (.bvs 0x12) && decodesTo [0x2A, 0x12] (.bpl 0x12) &&
      decodesTo [0x2B, 0x12] (.bmi 0x12) && decodesTo [0x2C, 0x12] (.bge 0x12) &&
      decodesTo [0x2D, 0x12] (.blt 0x12) && decodesTo [0x2E, 0x12] (.bgt 0x12) &&
      decodesTo [0x2F, 0x12] (.ble 0x12) && decodesTo [0x6E, 0x12] (.jmp (.idx 0x12)) &&
      decodesTo [0x7E, 0x12, 0x34] (.jmp (.ext 0x1234)) && decodesTo [0xAD, 0x12] (.jsr (.idx 0x12)) &&
      decodesTo [0xBD, 0x12, 0x34] (.jsr (.ext 0x1234)) && decodesTo [0x8D, 0x12] (.bsr 0x12) &&
      decodesTo [0x39] .rts) = true := by decide

theorem test_decode_system :
    (decodesTo [0x01] .nop && decodesTo [0x0C] .clc && decodesTo [0x0D] .sec && decodesTo [0x0A] .clv &&
      decodesTo [0x0B] .sev && decodesTo [0x0E] .cli && decodesTo [0x0F] .sei && decodesTo [0x3F] .swi &&
      decodesTo [0x3B] .rti && decodesTo [0x3E] .wai) = true := by decide

theorem test_decode_unrecognised_1 :
    (decodesTo [0x00] (.unrecognised 0x00) && decodesTo [0x02] (.unrecognised 0x02) &&
      decodesTo [0x03] (.unrecognised 0x03) && decodesTo [0x04] (.unrecognised 0x04) &&
      decodesTo [0x05] (.unrecognised 0x05) && decodesTo [0x12] (.unrecognised 0x12) &&
      decodesTo [0x13] (.unrecognised 0x13) && decodesTo [0x14] (.unrecognised 0x14) &&
      decodesTo [0x15] (.unrecognised 0x15) && decodesTo [0x18] (.unrecognised 0x18) &&
      decodesTo [0x1A] (.unrecognised 0x1A) && decodesTo [0x1C] (.unrecognised 0x1C) &&
      decodesTo [0x1D] (.unrecognised 0x1D) && decodesTo [0x1E] (.unrecognised 0x1E) &&
      decodesTo [0x1F] (.unrecognised 0x1F) && decodesTo [0x21] (.unrecognised 0x21) &&
      decodesTo [0x38] (.unrecognised 0x38) && decodesTo [0x3A] (.unrecognised 0x3A) &&
      decodesTo [0x3C] (.unrecognised 0x3C) && decodesTo [0x3D] (.unrecognised 0x3D) &&
      decodesTo [0x41] (.unrecognised 0x41) && decodesTo [0x42] (.unrecognised 0x42) &&
      decodesTo [0x45] (.unrecognised 0x45) && decodesTo [0x4B] (.unrecognised 0x4B) &&
      decodesTo [0x4E] (.unrecognised 0x4E) && decodesTo [0x51] (.unrecognised 0x51) &&
      decodesTo [0x52] (.unrecognised 0x52)) = true := by decide

theorem test_decode_unrecognised_2 :
    (decodesTo [0x55] (.unrecognised 0x55) && decodesTo [0x5B] (.unrecognised 0x5B) &&
      decodesTo [0x5E] (.unrecognised 0x5E) && decodesTo [0x61] (.unrecognised 0x61) &&
      decodesTo [0x62] (.unrecognised 0x62) && decodesTo [0x65] (.unrecognised 0x65) &&
      decodesTo [0x6B] (.unrecognised 0x6B) && decodesTo [0x83] (.unrecognised 0x83) &&
      decodesTo [0x87] (.unrecognised 0x87) && decodesTo [0x8F] (.unrecognised 0x8F) &&
      decodesTo [0x93] (.unrecognised 0x93) && decodesTo [0x9D] (.unrecognised 0x9D) &&
      decodesTo [0xA3] (.unrecognised 0xA3) && decodesTo [0xB3] (.unrecognised 0xB3) &&
      decodesTo [0xC3] (.unrecognised 0xC3) && decodesTo [0xC7] (.unrecognised 0xC7) &&
      decodesTo [0xCC] (.unrecognised 0xCC) && decodesTo [0xCD] (.unrecognised 0xCD) &&
      decodesTo [0xCF] (.unrecognised 0xCF) && decodesTo [0xD3] (.unrecognised 0xD3) &&
      decodesTo [0xDC] (.unrecognised 0xDC) && decodesTo [0xDD] (.unrecognised 0xDD) &&
      decodesTo [0xE3] (.unrecognised 0xE3) && decodesTo [0xED] (.unrecognised 0xED) &&
      decodesTo [0xF3] (.unrecognised 0xF3) && decodesTo [0xFD] (.unrecognised 0xFD)) = true := by decide

-- One step of every instruction.

/-- The registers of a test: pc 0x1000, SP 0x01FF, everything else 0. -/
def cpu0 : Cpu := { State.reset.cpu with i := false, sp := 0x01FF, pc := 0x1000 }

/-- The state of a test: registers, and bytes of memory by address. -/
def stateOf (k : Cpu) (cells : List (Word × Byte)) : State :=
  { State.reset with
    cpu := k
    mem := cells.foldl (fun m c => writeByte m c.1.toNat c.2) [] }

/-- One step on an instruction at pc. -/
def runAt (bytes : List Byte) (k : Cpu) (cells : List (Word × Byte)) : Option State :=
  let code := bytes.zipIdx.map fun b => (k.pc + BitVec.ofNat 16 b.2, b.1)
  match step (stateOf k (code ++ cells)) with
  | .next t => some t
  | .fault _ => none
  | .refused _ => none

/-- The registers, the clock and some bytes after one step. -/
def ends (r : Option State) (k : Cpu) (clock : Nat) (cells : List (Word × Byte)) : Bool :=
  match r with
  | some t => decide (t.cpu = k) && t.clock == clock && cells.all fun c => (load8 c.1 t).1 == c.2
  | none => false

/-- R121. -/
theorem test_ldaa :
    ends (runAt [0x86, 0x80] cpu0 [])
      { cpu0 with a := 0x80, n := true, pc := 0x1002 } 2 [] = true := by
  decide +kernel

/-- R121 with 20_memory R84. -/
theorem test_ldab :
    ends (runAt [0xF6, 0x20, 0x01] { cpu0 with v := true, n := true } [(0x2000, 0x55)])
      { cpu0 with v := false, n := false, b := 0x00, z := true, pc := 0x1003 } 4 [(0x2000, 0x55)] = true := by
  decide +kernel

/-- R122. -/
theorem test_staa :
    ends (runAt [0x97, 0x10] { cpu0 with v := true } [(0x10, 0x77)])
      { cpu0 with v := false, z := true, pc := 0x1002 } 4 [(0x10, 0x00)] = true := by
  decide +kernel

/-- R122, R104: the indexed sum wraps. -/
theorem test_stab :
    ends (runAt [0xE7, 0x05] { cpu0 with b := 0x9C, ix := 0xFFFE } [])
      { cpu0 with b := 0x9C, ix := 0xFFFE, n := true, pc := 0x1002 } 6 [(0x03, 0x9C)] = true := by
  decide +kernel

/-- R123. -/
theorem test_ldx :
    ends (runAt [0xCE, 0x12, 0x34] cpu0 [])
      { cpu0 with ix := 0x1234, pc := 0x1003 } 3 [] = true := by
  decide +kernel

/-- R123: IDX uses the old IX. -/
theorem test_ldx_indexed_by_itself :
    ends (runAt [0xEE, 0x00] { cpu0 with ix := 0x2000 } [(0x2000, 0x80), (0x2001, 0x01)])
      { cpu0 with ix := 0x8001, n := true, pc := 0x1002 } 6 [] = true := by
  decide +kernel

/-- R124. -/
theorem test_lds :
    ends (runAt [0x8E, 0x3F, 0xFF] cpu0 [])
      { cpu0 with sp := 0x3FFF, pc := 0x1003 } 3 [] = true := by
  decide +kernel

/-- R125. -/
theorem test_stx :
    ends (runAt [0xDF, 0x20] { cpu0 with ix := 0xBEEF } [])
      { cpu0 with ix := 0xBEEF, n := true, pc := 0x1002 } 5 [(0x20, 0xBE), (0x21, 0xEF)] = true := by
  decide +kernel

/-- R126. -/
theorem test_sts :
    ends (runAt [0x9F, 0x30] cpu0 [])
      { cpu0 with pc := 0x1002 } 5 [(0x30, 0x01), (0x31, 0xFF)] = true := by
  decide +kernel

/-- R127. -/
theorem test_tab :
    ends (runAt [0x16] { cpu0 with a := 0xFF } [])
      { cpu0 with a := 0xFF, b := 0xFF, n := true, pc := 0x1001 } 2 [] = true := by
  decide +kernel

/-- R128. -/
theorem test_tba :
    ends (runAt [0x17] { cpu0 with a := 0x07 } [])
      { cpu0 with a := 0x00, z := true, pc := 0x1001 } 2 [] = true := by
  decide +kernel

/-- R129. -/
theorem test_tap :
    ends (runAt [0x06] { cpu0 with a := 0xC1, i := true } [])
      { cpu0 with a := 0xC1, i := false, c := true, pc := 0x1001 } 2 [] = true := by
  decide +kernel

/-- R130. -/
theorem test_tpa :
    ends (runAt [0x07] { cpu0 with i := true, z := true } [])
      { cpu0 with i := true, z := true, a := 0xD4, pc := 0x1001 } 2 [] = true := by
  decide +kernel

/-- R131. -/
theorem test_tsx :
    ends (runAt [0x30] { cpu0 with sp := 0x01FC } [])
      { cpu0 with sp := 0x01FC, ix := 0x01FD, pc := 0x1001 } 4 [] = true := by
  decide +kernel

/-- R132. -/
theorem test_txs :
    ends (runAt [0x35] { cpu0 with ix := 0x0200 } [])
      { cpu0 with ix := 0x0200, sp := 0x01FF, pc := 0x1001 } 4 [] = true := by
  decide +kernel

/-- R133. -/
theorem test_psha :
    ends (runAt [0x36] { cpu0 with a := 0x5A } [])
      { cpu0 with a := 0x5A, sp := 0x01FE, pc := 0x1001 } 4 [(0x01FF, 0x5A)] = true := by
  decide +kernel

/-- R133: SP wraps. -/
theorem test_pshb :
    ends (runAt [0x37] { cpu0 with b := 0x5A, sp := 0x00 } [])
      { cpu0 with b := 0x5A, sp := 0xFFFF, pc := 0x1001 } 4 [(0x00, 0x5A)] = true := by
  decide +kernel

/-- R134. -/
theorem test_pula :
    ends (runAt [0x32] { cpu0 with sp := 0x01FE } [(0x01FF, 0x5A)])
      { cpu0 with sp := 0x01FF, a := 0x5A, pc := 0x1001 } 4 [] = true := by
  decide +kernel

/-- R134: SP wraps. -/
theorem test_pulb :
    ends (runAt [0x33] { cpu0 with sp := 0xFFFF } [(0x00, 0xC3)])
      { cpu0 with sp := 0x00, b := 0xC3, pc := 0x1001 } 4 [] = true := by
  decide +kernel

/-- R151. -/
theorem test_adda :
    ends (runAt [0x8B, 0x01] { cpu0 with a := 0x7F } [])
      { cpu0 with a := 0x80, h := true, n := true, v := true, pc := 0x1002 } 2 [] = true := by
  decide +kernel

/-- R151: 0xFF + 0x01. -/
theorem test_addb :
    ends (runAt [0xCB, 0x01] { cpu0 with b := 0xFF } [])
      { cpu0 with b := 0x00, h := true, z := true, c := true, pc := 0x1002 } 2 [] = true := by
  decide +kernel

/-- R152. -/
theorem test_adca :
    ends (runAt [0x89, 0x00] { cpu0 with a := 0xFF, c := true } [])
      { cpu0 with a := 0x00, c := true, h := true, z := true, pc := 0x1002 } 2 [] = true := by
  decide +kernel

/-- R152: 0x7F + 0x00 + C. -/
theorem test_adcb :
    ends (runAt [0xC9, 0x00] { cpu0 with b := 0x7F, c := true } [])
      { cpu0 with b := 0x80, c := false, h := true, n := true, v := true, pc := 0x1002 } 2 [] = true := by
  decide +kernel

/-- R153. -/
theorem test_aba :
    ends (runAt [0x1B] { cpu0 with a := 0x19, b := 0x28 } [])
      { cpu0 with a := 0x41, b := 0x28, h := true, pc := 0x1001 } 2 [] = true := by
  decide +kernel

/-- R154. -/
theorem test_suba :
    ends (runAt [0x80, 0x01] cpu0 [])
      { cpu0 with a := 0xFF, n := true, c := true, pc := 0x1002 } 2 [] = true := by
  decide +kernel

/-- R154: 0x80 - 0x01. -/
theorem test_subb :
    ends (runAt [0xC0, 0x01] { cpu0 with b := 0x80, h := true } [])
      { cpu0 with b := 0x7F, h := true, v := true, pc := 0x1002 } 2 [] = true := by
  decide +kernel

/-- R155. -/
theorem test_sbca :
    ends (runAt [0x82, 0x00] { cpu0 with c := true } [])
      { cpu0 with c := true, a := 0xFF, n := true, pc := 0x1002 } 2 [] = true := by
  decide +kernel

/-- R155: 0x00 - 0xFF - 1. -/
theorem test_sbcb :
    ends (runAt [0xC2, 0xFF] { cpu0 with c := true } [])
      { cpu0 with c := true, b := 0x00, z := true, pc := 0x1002 } 2 [] = true := by
  decide +kernel

/-- R156. -/
theorem test_sba :
    ends (runAt [0x10] { cpu0 with a := 0x50, b := 0x60 } [])
      { cpu0 with a := 0xF0, b := 0x60, n := true, c := true, pc := 0x1001 } 2 [] = true := by
  decide +kernel

/-- R157. -/
theorem test_cmpa :
    ends (runAt [0x81, 0x10] { cpu0 with a := 0x0F } [])
      { cpu0 with a := 0x0F, n := true, c := true, pc := 0x1002 } 2 [] = true := by
  decide +kernel

/-- R157: equal operands. -/
theorem test_cmpb :
    ends (runAt [0xC1, 0x10] { cpu0 with b := 0x10, c := true } [])
      { cpu0 with b := 0x10, c := false, z := true, pc := 0x1002 } 2 [] = true := by
  decide +kernel

/-- R158. -/
theorem test_cba :
    ends (runAt [0x11] { cpu0 with a := 0x80, b := 0x01 } [])
      { cpu0 with a := 0x80, b := 0x01, v := true, pc := 0x1001 } 2 [] = true := by
  decide +kernel

/-- R159. -/
theorem test_nega :
    ends (runAt [0x40] { cpu0 with a := 0x01 } [])
      { cpu0 with a := 0xFF, n := true, c := true, pc := 0x1001 } 2 [] = true := by
  decide +kernel

/-- R159: 0x80 stays. -/
theorem test_negb :
    ends (runAt [0x50] { cpu0 with b := 0x80 } [])
      { cpu0 with b := 0x80, n := true, v := true, c := true, pc := 0x1001 } 2 [] = true := by
  decide +kernel

/-- R159: 0x00 stays. -/
theorem test_neg :
    ends (runAt [0x60, 0x02] { cpu0 with ix := 0x2000, c := true } [])
      { cpu0 with ix := 0x2000, c := false, z := true, pc := 0x1002 } 7 [(0x2002, 0x00)] = true := by
  decide +kernel

/-- R160. -/
theorem test_inca :
    ends (runAt [0x4C] { cpu0 with a := 0x7F } [])
      { cpu0 with a := 0x80, n := true, v := true, pc := 0x1001 } 2 [] = true := by
  decide +kernel

/-- R160: 0xFF, C unchanged. -/
theorem test_incb :
    ends (runAt [0x5C] { cpu0 with b := 0xFF, c := true } [])
      { cpu0 with b := 0x00, c := true, z := true, pc := 0x1001 } 2 [] = true := by
  decide +kernel

/-- R160. -/
theorem test_inc :
    ends (runAt [0x7C, 0x20, 0x00] cpu0 [(0x2000, 0x7F)])
      { cpu0 with n := true, v := true, pc := 0x1003 } 6 [(0x2000, 0x80)] = true := by
  decide +kernel

/-- R161: 0x80. -/
theorem test_deca :
    ends (runAt [0x4A] { cpu0 with a := 0x80 } [])
      { cpu0 with a := 0x7F, v := true, pc := 0x1001 } 2 [] = true := by
  decide +kernel

/-- R161. -/
theorem test_decb :
    ends (runAt [0x5A] { cpu0 with b := 0x01 } [])
      { cpu0 with b := 0x00, z := true, pc := 0x1001 } 2 [] = true := by
  decide +kernel

/-- R161: 0x00, C unchanged. -/
theorem test_dec :
    ends (runAt [0x6A, 0x00] { cpu0 with ix := 0x2000, c := true } [])
      { cpu0 with ix := 0x2000, c := true, n := true, pc := 0x1002 } 7 [(0x2000, 0xFF)] = true := by
  decide +kernel

/-- R162. -/
theorem test_clra :
    ends (runAt [0x4F] { cpu0 with a := 0xA5, c := true, n := true } [])
      { cpu0 with a := 0x00, c := false, n := false, z := true, pc := 0x1001 } 2 [] = true := by
  decide +kernel

/-- R162. -/
theorem test_clrb :
    ends (runAt [0x5F] { cpu0 with b := 0xA5, v := true, h := true } [])
      { cpu0 with b := 0x00, v := false, h := true, z := true, pc := 0x1001 } 2 [] = true := by
  decide +kernel

/-- R162: a ROM byte keeps its value, the flags are written. -/
theorem test_clr :
    ends (runAt [0x7F, 0xE0, 0x00] { cpu0 with n := true } [(0xE000, 0x12)])
      { cpu0 with n := false, z := true, pc := 0x1003 } 6 [(0xE000, 0x12)] = true := by
  decide +kernel

/-- R163. -/
theorem test_tsta :
    ends (runAt [0x4D] { cpu0 with a := 0x80, c := true } [])
      { cpu0 with a := 0x80, c := false, n := true, pc := 0x1001 } 2 [] = true := by
  decide +kernel

/-- R163. -/
theorem test_tstb :
    ends (runAt [0x5D] { cpu0 with v := true } [])
      { cpu0 with v := false, z := true, pc := 0x1001 } 2 [] = true := by
  decide +kernel

/-- R163. -/
theorem test_tst :
    ends (runAt [0x6D, 0x01] { cpu0 with ix := 0x2000, c := true } [(0x2001, 0x80)])
      { cpu0 with ix := 0x2000, c := false, n := true, pc := 0x1002 } 7 [(0x2001, 0x80)] = true := by
  decide +kernel

/-- R164. -/
theorem test_daa :
    ends (runAt [0x19] { cpu0 with a := 0x41, h := true } [])
      { cpu0 with a := 0x47, h := true, pc := 0x1001 } 2 [] = true := by
  decide +kernel

/-- R164. -/
theorem test_daa_carries :
    ends (runAt [0x19] { cpu0 with a := 0x9A } [])
      { cpu0 with a := 0x00, z := true, c := true, pc := 0x1001 } 2 [] = true := by
  decide +kernel

/-- R165: 0xFFFF. -/
theorem test_inx :
    ends (runAt [0x08] { cpu0 with ix := 0xFFFF, n := true } [])
      { cpu0 with ix := 0x00, n := true, z := true, pc := 0x1001 } 4 [] = true := by
  decide +kernel

/-- R166. -/
theorem test_dex :
    ends (runAt [0x09] { cpu0 with ix := 0x01 } [])
      { cpu0 with ix := 0x00, z := true, pc := 0x1001 } 4 [] = true := by
  decide +kernel

/-- R167. -/
theorem test_ins :
    ends (runAt [0x31] { cpu0 with sp := 0xFFFF } [])
      { cpu0 with sp := 0x00, pc := 0x1001 } 4 [] = true := by
  decide +kernel

/-- R168. -/
theorem test_des :
    ends (runAt [0x34] { cpu0 with sp := 0x00 } [])
      { cpu0 with sp := 0xFFFF, pc := 0x1001 } 4 [] = true := by
  decide +kernel

/-- R169. -/
theorem test_cpx :
    ends (runAt [0x8C, 0x12, 0x34] { cpu0 with ix := 0x1234, c := true } [])
      { cpu0 with ix := 0x1234, c := true, z := true, pc := 0x1003 } 3 [] = true := by
  decide +kernel

/-- R178. -/
theorem test_adx :
    ends (runAt [0xEC, 0x10] { cpu0 with ix := 0xF8, h := true } [])
      { cpu0 with ix := 0x0108, h := true, pc := 0x1002 } 3 [] = true := by
  decide +kernel

/-- R178: 0x7FFF plus 1. -/
theorem test_adx_extended :
    ends (runAt [0xFC, 0x20, 0x00] { cpu0 with ix := 0x7FFF } [(0x2001, 0x01)])
      { cpu0 with ix := 0x8000, n := true, v := true, pc := 0x1003 } 7 [] = true := by
  decide +kernel

/-- R190. -/
theorem test_anda :
    ends (runAt [0x84, 0x0F] { cpu0 with a := 0xF0 } [])
      { cpu0 with a := 0x00, z := true, pc := 0x1002 } 2 [] = true := by
  decide +kernel

/-- R190. -/
theorem test_andb :
    ends (runAt [0xC4, 0xF0] { cpu0 with b := 0xFF, v := true } [])
      { cpu0 with b := 0xF0, v := false, n := true, pc := 0x1002 } 2 [] = true := by
  decide +kernel

/-- R191. -/
theorem test_bita :
    ends (runAt [0x85, 0x80] { cpu0 with a := 0xC0 } [])
      { cpu0 with a := 0xC0, n := true, pc := 0x1002 } 2 [] = true := by
  decide +kernel

/-- R191. -/
theorem test_bitb :
    ends (runAt [0xC5, 0x01] { cpu0 with b := 0xC0, c := true } [])
      { cpu0 with b := 0xC0, c := true, z := true, pc := 0x1002 } 2 [] = true := by
  decide +kernel

/-- R192. -/
theorem test_oraa :
    ends (runAt [0x8A, 0x81] { cpu0 with a := 0x02 } [])
      { cpu0 with a := 0x83, n := true, pc := 0x1002 } 2 [] = true := by
  decide +kernel

/-- R192. -/
theorem test_orab :
    ends (runAt [0xDA, 0x10] { cpu0 with b := 0x02 } [(0x10, 0x11)])
      { cpu0 with b := 0x13, pc := 0x1002 } 3 [] = true := by
  decide +kernel

/-- R193. -/
theorem test_eora :
    ends (runAt [0x88, 0xFF] { cpu0 with a := 0x0F } [])
      { cpu0 with a := 0xF0, n := true, pc := 0x1002 } 2 [] = true := by
  decide +kernel

/-- R193: x ^ x. -/
theorem test_eorb :
    ends (runAt [0xC8, 0x3C] { cpu0 with b := 0x3C } [])
      { cpu0 with b := 0x00, z := true, pc := 0x1002 } 2 [] = true := by
  decide +kernel

/-- R194. -/
theorem test_coma :
    ends (runAt [0x43] { cpu0 with a := 0x55 } [])
      { cpu0 with a := 0xAA, n := true, c := true, pc := 0x1001 } 2 [] = true := by
  decide +kernel

/-- R194: 0xFF. -/
theorem test_comb :
    ends (runAt [0x53] { cpu0 with b := 0xFF, v := true } [])
      { cpu0 with b := 0x00, v := false, z := true, c := true, pc := 0x1001 } 2 [] = true := by
  decide +kernel

/-- R194. -/
theorem test_com :
    ends (runAt [0x73, 0x20, 0x00] cpu0 [(0x2000, 0x55)])
      { cpu0 with n := true, c := true, pc := 0x1003 } 6 [(0x2000, 0xAA)] = true := by
  decide +kernel

/-- R196. -/
theorem test_asla :
    ends (runAt [0x48] { cpu0 with a := 0x81 } [])
      { cpu0 with a := 0x02, v := true, c := true, pc := 0x1001 } 2 [] = true := by
  decide +kernel

/-- R196: 0x40. -/
theorem test_aslb :
    ends (runAt [0x58] { cpu0 with b := 0x40 } [])
      { cpu0 with b := 0x80, n := true, v := true, pc := 0x1001 } 2 [] = true := by
  decide +kernel

/-- R196: 0x80. -/
theorem test_asl :
    ends (runAt [0x68, 0x00] { cpu0 with ix := 0x2000 } [(0x2000, 0x80)])
      { cpu0 with ix := 0x2000, z := true, v := true, c := true, pc := 0x1002 } 7 [(0x2000, 0x00)] = true := by
  decide +kernel

/-- R197. -/
theorem test_asra :
    ends (runAt [0x47] { cpu0 with a := 0x81 } [])
      { cpu0 with a := 0xC0, n := true, c := true, pc := 0x1001 } 2 [] = true := by
  decide +kernel

/-- R197: 0x01. -/
theorem test_asrb :
    ends (runAt [0x57] { cpu0 with b := 0x01 } [])
      { cpu0 with b := 0x00, z := true, v := true, c := true, pc := 0x1001 } 2 [] = true := by
  decide +kernel

/-- R197: 0xFF stays. -/
theorem test_asr :
    ends (runAt [0x67, 0x00] { cpu0 with ix := 0x2000 } [(0x2000, 0xFF)])
      { cpu0 with ix := 0x2000, n := true, c := true, pc := 0x1002 } 7 [(0x2000, 0xFF)] = true := by
  decide +kernel

/-- R198. -/
theorem test_lsra :
    ends (runAt [0x44] { cpu0 with a := 0x81 } [])
      { cpu0 with a := 0x40, v := true, c := true, pc := 0x1001 } 2 [] = true := by
  decide +kernel

/-- R198: 0x01. -/
theorem test_lsrb :
    ends (runAt [0x54] { cpu0 with b := 0x01, n := true } [])
      { cpu0 with b := 0x00, n := false, z := true, v := true, c := true, pc := 0x1001 } 2 [] = true := by
  decide +kernel

/-- R198. -/
theorem test_lsr :
    ends (runAt [0x74, 0x20, 0x00] cpu0 [(0x2000, 0x81)])
      { cpu0 with v := true, c := true, pc := 0x1003 } 6 [(0x2000, 0x40)] = true := by
  decide +kernel

/-- R199. -/
theorem test_rola :
    ends (runAt [0x49] { cpu0 with a := 0x40, c := true } [])
      { cpu0 with a := 0x81, c := false, n := true, v := true, pc := 0x1001 } 2 [] = true := by
  decide +kernel

/-- R199: 0x80. -/
theorem test_rolb :
    ends (runAt [0x59] { cpu0 with b := 0x80 } [])
      { cpu0 with b := 0x00, z := true, v := true, c := true, pc := 0x1001 } 2 [] = true := by
  decide +kernel

/-- R199. -/
theorem test_rol :
    ends (runAt [0x79, 0x20, 0x00] { cpu0 with c := true } [(0x2000, 0x40)])
      { cpu0 with c := false, n := true, v := true, pc := 0x1003 } 6 [(0x2000, 0x81)] = true := by
  decide +kernel

/-- R200. -/
theorem test_rora :
    ends (runAt [0x46] { cpu0 with a := 0x01, c := true } [])
      { cpu0 with a := 0x80, c := true, n := true, pc := 0x1001 } 2 [] = true := by
  decide +kernel

/-- R200: 0x01, C = 0. -/
theorem test_rorb :
    ends (runAt [0x56] { cpu0 with b := 0x01 } [])
      { cpu0 with b := 0x00, z := true, v := true, c := true, pc := 0x1001 } 2 [] = true := by
  decide +kernel

/-- R200. -/
theorem test_ror :
    ends (runAt [0x66, 0x00] { cpu0 with ix := 0x2000, c := true } [(0x2000, 0x01)])
      { cpu0 with ix := 0x2000, c := true, n := true, pc := 0x1002 } 7 [(0x2000, 0x80)] = true := by
  decide +kernel

/-- R201. -/
theorem test_nim :
    ends (runAt [0x71, 0x0F, 0x02] { cpu0 with ix := 0x0100 } [(0x0102, 0x3C)])
      { cpu0 with ix := 0x0100, n := true, pc := 0x1003 } 8 [(0x0102, 0x0C)] = true := by
  decide +kernel

/-- R202. -/
theorem test_oim :
    ends (runAt [0x72, 0x80, 0x00] { cpu0 with ix := 0x0100 } [(0x0100, 0x01)])
      { cpu0 with ix := 0x0100, n := true, pc := 0x1003 } 8 [(0x0100, 0x81)] = true := by
  decide +kernel

/-- R203. -/
theorem test_xim :
    ends (runAt [0x75, 0xFF, 0x00] { cpu0 with ix := 0x0100 } [(0x0100, 0xFF)])
      { cpu0 with ix := 0x0100, z := true, pc := 0x1003 } 8 [(0x0100, 0x00)] = true := by
  decide +kernel

/-- R204: some masked bits. -/
theorem test_tmm :
    ends (runAt [0x7B, 0x03, 0x00] { cpu0 with ix := 0x0100 } [(0x0100, 0x01)])
      { cpu0 with ix := 0x0100, n := true, pc := 0x1003 } 7 [(0x0100, 0x01)] = true := by
  decide +kernel

/-- R204: all masked bits. -/
theorem test_tmm_all :
    ends (runAt [0x7B, 0x03, 0x00] { cpu0 with ix := 0x0100 } [(0x0100, 0x07)])
      { cpu0 with ix := 0x0100, v := true, pc := 0x1003 } 7 [] = true := by
  decide +kernel

/-- R222. -/
theorem test_bra :
    ends (runAt [0x20, 0x03] cpu0 [])
      { cpu0 with pc := 0x1005 } 4 [] = true := by
  decide +kernel

/-- R223. -/
theorem test_bhi :
    ends (runAt [0x22, 0x10] cpu0 [])
      { cpu0 with pc := 0x1012 } 4 [] = true := by
  decide +kernel

/-- R224. -/
theorem test_bls :
    ends (runAt [0x23, 0x10] { cpu0 with c := true } [])
      { cpu0 with c := true, pc := 0x1012 } 4 [] = true := by
  decide +kernel

/-- R225. -/
theorem test_bcc :
    ends (runAt [0x24, 0xF0] cpu0 [])
      { cpu0 with pc := 0x0FF2 } 4 [] = true := by
  decide +kernel

/-- R226. -/
theorem test_bcs :
    ends (runAt [0x25, 0x02] cpu0 [])
      { cpu0 with pc := 0x1002 } 4 [] = true := by
  decide +kernel

/-- R227. -/
theorem test_bne :
    ends (runAt [0x26, 0xFD] { cpu0 with pc := 0x1003 } [])
      { cpu0 with pc := 0x1002 } 4 [] = true := by
  decide +kernel

/-- R228. -/
theorem test_beq :
    ends (runAt [0x27, 0x04] { cpu0 with z := true } [])
      { cpu0 with z := true, pc := 0x1006 } 4 [] = true := by
  decide +kernel

/-- R229. -/
theorem test_bvc :
    ends (runAt [0x28, 0x04] { cpu0 with v := true } [])
      { cpu0 with v := true, pc := 0x1002 } 4 [] = true := by
  decide +kernel

/-- R230. -/
theorem test_bvs :
    ends (runAt [0x29, 0x04] { cpu0 with v := true } [])
      { cpu0 with v := true, pc := 0x1006 } 4 [] = true := by
  decide +kernel

/-- R231. -/
theorem test_bpl :
    ends (runAt [0x2A, 0x7F] cpu0 [])
      { cpu0 with pc := 0x1081 } 4 [] = true := by
  decide +kernel

/-- R232. -/
theorem test_bmi :
    ends (runAt [0x2B, 0x80] { cpu0 with n := true } [])
      { cpu0 with n := true, pc := 0x0F82 } 4 [] = true := by
  decide +kernel

/-- R233. -/
theorem test_bge :
    ends (runAt [0x2C, 0x02] { cpu0 with n := true, v := true } [])
      { cpu0 with n := true, v := true, pc := 0x1004 } 4 [] = true := by
  decide +kernel

/-- R234. -/
theorem test_blt :
    ends (runAt [0x2D, 0x02] { cpu0 with n := true } [])
      { cpu0 with n := true, pc := 0x1004 } 4 [] = true := by
  decide +kernel

/-- R235. -/
theorem test_bgt :
    ends (runAt [0x2E, 0x02] cpu0 [])
      { cpu0 with pc := 0x1004 } 4 [] = true := by
  decide +kernel

/-- R236. -/
theorem test_ble :
    ends (runAt [0x2F, 0x02] { cpu0 with z := true } [])
      { cpu0 with z := true, pc := 0x1004 } 4 [] = true := by
  decide +kernel

/-- R237. -/
theorem test_jmp :
    ends (runAt [0x7E, 0xE0, 0x00] cpu0 [])
      { cpu0 with pc := 0xE000 } 3 [] = true := by
  decide +kernel

/-- R237: the address in IX, nothing read. -/
theorem test_jmp_indexed :
    ends (runAt [0x6E, 0x02] { cpu0 with ix := 0xFFFF } [])
      { cpu0 with ix := 0xFFFF, pc := 0x01 } 4 [] = true := by
  decide +kernel

/-- R238. -/
theorem test_jsr :
    ends (runAt [0xBD, 0x20, 0x00] cpu0 [])
      { cpu0 with pc := 0x2000, sp := 0x01FD } 9 [(0x01FF, 0x03), (0x01FE, 0x10)] = true := by
  decide +kernel

/-- R239. -/
theorem test_bsr :
    ends (runAt [0x8D, 0x10] cpu0 [])
      { cpu0 with pc := 0x1012, sp := 0x01FD } 8 [(0x01FF, 0x02), (0x01FE, 0x10)] = true := by
  decide +kernel

/-- R240. -/
theorem test_rts :
    ends (runAt [0x39] { cpu0 with sp := 0x01FD } [(0x01FE, 0x10), (0x01FF, 0x03)])
      { cpu0 with sp := 0x01FF, pc := 0x1003 } 5 [] = true := by
  decide +kernel

/-- R250. -/
theorem test_nop :
    ends (runAt [0x01] cpu0 [])
      { cpu0 with pc := 0x1001 } 2 [] = true := by
  decide +kernel

/-- R251. -/
theorem test_clc :
    ends (runAt [0x0C] { cpu0 with c := true } [])
      { cpu0 with c := false, pc := 0x1001 } 2 [] = true := by
  decide +kernel

/-- R252. -/
theorem test_sec :
    ends (runAt [0x0D] cpu0 [])
      { cpu0 with c := true, pc := 0x1001 } 2 [] = true := by
  decide +kernel

/-- R253. -/
theorem test_clv :
    ends (runAt [0x0A] { cpu0 with v := true } [])
      { cpu0 with v := false, pc := 0x1001 } 2 [] = true := by
  decide +kernel

/-- R254. -/
theorem test_sev :
    ends (runAt [0x0B] cpu0 [])
      { cpu0 with v := true, pc := 0x1001 } 2 [] = true := by
  decide +kernel

/-- R255. -/
theorem test_cli :
    ends (runAt [0x0E] { cpu0 with i := true } [])
      { cpu0 with i := false, pc := 0x1001 } 2 [] = true := by
  decide +kernel

/-- R256. -/
theorem test_sei :
    ends (runAt [0x0F] cpu0 [])
      { cpu0 with i := true, pc := 0x1001 } 2 [] = true := by
  decide +kernel

/-- R258. -/
theorem test_swi :
    ends (runAt [0x3F] { cpu0 with ix := 0x1234, a := 0x56, b := 0x78, z := true, c := true }
        [(0xFFFA, 0xE1), (0xFFFB, 0x00)])
     
        { cpu0 with ix := 0x1234, a := 0x56, b := 0x78, z := true, c := true, sp := 0x01F8, i := true, pc := 0xE100 } 12
        [(0x01FF, 0x01), (0x01FE, 0x10), (0x01FD, 0x34), (0x01FC, 0x12), (0x01FB, 0x56), (0x01FA, 0x78),
         (0x01F9, 0xC5)] = true := by
  decide +kernel

/-- R259. -/
theorem test_rti :
    ends (runAt [0x3B] { cpu0 with pc := 0x2000, sp := 0x01F8, i := true }
        [(0x01FF, 0x01), (0x01FE, 0x10), (0x01FD, 0x34), (0x01FC, 0x12), (0x01FB, 0x56), (0x01FA, 0x78),
         (0x01F9, 0xC5)])
     
        { cpu0 with pc := 0x1001, sp := 0x01FF, i := false, b := 0x78, a := 0x56, ix := 0x1234, z := true, c := true } 10 [] = true := by
  decide +kernel

/-- R260. -/
theorem test_wai :
    ends (runAt [0x3E] cpu0 [])
      { cpu0 with pc := 0x1001 } 9 [(0x01FF, 0x00)] = true := by
  decide +kernel

/-- R262. -/
theorem test_unrecognised :
    ends (runAt [0x00] cpu0 [])
      { cpu0 with pc := 0x1001 } 1 [] = true := by
  decide +kernel

-- Further points of the spec.

/-- Registering the devices of 20_memory R82 in order gives the default map, and the regions own what R82 says,
up to their edges. -/
theorem test_default_map :
    registerAll [⟨0x0000, 0x3FFF, .ram⟩, ⟨0xC000, 0xC0FF, .ram⟩, ⟨0xC100, 0xC3FF, .ram⟩, viaRegion,
      ⟨0xE000, 0xFFFF, .rom⟩] [] = .ok defaultMap ∧
    ([0x0000, 0x3FFF, 0x4000, 0xBFFF, 0xC000, 0xC3FF, 0xC400, 0xC7FF, 0xC800, 0xC80F, 0xC810, 0xDFFF, 0xE000,
      0xFFFF].map (ownerIn defaultMap)) =
      [.ram, .ram, .stub, .stub, .ram, .ram, .stub, .stub, .via, .via, .stub, .stub, .rom, .rom] := by
  decide +kernel

/-- The cost table has an entry for each of the 256 opcode bytes (30_encoding R109). -/
theorem test_cycles_length : defaultCycles.length = 256 := by decide +kernel

/-- The host's interface: the instruction placed by `withFetchWord` is the next one to run (LDAA #$80). -/
theorem test_with_fetch_word :
    decodeTableWord 16 0x8086 = some (.ldaa (.imm 0x80)) ∧
    ends (match step (State.reset.withFetchWord 16 0x8086) with
      | .next t => some t
      | .fault _ => none
      | .refused _ => none)
      { State.reset.cpu with a := 0x80, n := true, pc := 2 } 2 [] = true := by
  decide +kernel

/-- "86 80" straddling the wrap from 0xFFFF to 0x0000 (20_memory R85). -/
theorem test_fetch_wraps :
    ends (runAt [0x86, 0x80] { cpu0 with pc := 0xFFFF } []) { cpu0 with pc := 1, a := 0x80, n := true } 2 [] = true := by
  decide +kernel

/-- Power-on, a Reset event and one step reach a state that agrees with the reset state (70_reset_and_hazards R451). -/
theorem test_reset_event :
    (match step (envStep .resetEvent { State.reset with clock := 9, cpu := { State.reset.cpu with i := false } }) with
      | .next t => decide (t = State.reset)
      | .fault _ => false
      | .refused _ => false) = true := by
  decide +kernel

-- Witnesses: for each statement with hypotheses, a state and operands that meet them together.

/-- Whether an outcome is a next state that satisfies a test. -/
def nextIs (o : Host.Outcome State Fault Refusal) (p : State → Bool) : Bool :=
  match o with
  | .next t => p t
  | .fault _ => false
  | .refused _ => false

/-- A test state whose map is RAM all over. -/
def allRam (k : Cpu) : State :=
  let s := stateOf k []
  { s with cfg := { s.cfg with map := [⟨0, 0xFFFF, .ram⟩] } }

/-- Every address of it is RAM. -/
theorem allRam_owner (k : Cpu) (a : Word) : owner (allRam k) a = .ram := by
  have h : regionHolds ⟨0, 0xFFFF, .ram⟩ a.toNat = true := by
    simp only [regionHolds, Bool.and_eq_true, decide_eq_true_eq]
    exact ⟨Nat.zero_le _, Nat.le_of_lt_succ a.isLt⟩
  show (if regionHolds ⟨0, 0xFFFF, .ram⟩ a.toNat = true then DeviceKind.ram else ownerIn [] a.toNat) = .ram
  rw [if_pos h]

/-- A test state with the VIA record changed. -/
def viaOf (f : Via → Via) : State := mapVia f (stateOf cpu0 [])

/-- A test state with the latches changed. -/
def reqOf (f : Requests → Requests) (k : Cpu) : State :=
  let s := stateOf k []
  { s with req := f s.req }

theorem witness_EncodeThenDecode : (Instr.nim 0x0F 0x02).wellFormed true = true ∧
    (Instr.unrecognised 0x71).wellFormed false = true := by decide

theorem witness_DecodeThenEncode : decodesTo [0xBD, 0x20, 0x00] (.jsr (.ext 0x2000)) = true := by decide

/-- Lengths 1, 2, 3 with just enough bytes after the opcode. -/
theorem witness_EveryOpcodeDecodes :
    lengthOf true 0x01 ≤ ([] : List Byte).length + 1 ∧ lengthOf true 0x86 ≤ ([0x12] : List Byte).length + 1 ∧
    lengthOf true 0x71 ≤ ([0x12, 0x34] : List Byte).length + 1 ∧ 0xFD ∈ unrecognisedOpcodes := by decide

theorem witness_StepRunsTheDecodedInstruction :
    let s := stateOf cpu0 [(0x1000, 0x86), (0x1001, 0x80)]
    let i := Instr.ldaa (.imm 0x80)
    boundaryArm s = .instruction ∧ i.wellFormed s.cfg.memImm = true ∧
    ∀ k, k < (encode i).length →
      owner s (s.cpu.pc + BitVec.ofNat 16 k) ≠ .via ∧
      plainByte s (s.cpu.pc + BitVec.ofNat 16 k) = (encode i).getD k 0 := by
  decide +kernel

/-- The code lies in the VIA. -/
theorem witness_FetchReadsTheInstructionInOrder :
    boundaryArm (stateOf { cpu0 with pc := 0xC804 } []) = .instruction := by decide

theorem witness_ResetIsTaken :
    (reqOf (fun r => { r with resetPending := true, haltActive := true }) cpu0).req.resetPending = true := by decide

/-- The halted step, the wait taken by an NMI with I set and an IRQ beside it, by an IRQ, and idle with I set. -/
theorem witness_HaltedAndWaitingSteps :
    (let s := reqOf (fun r => { r with haltActive := true, waitActive := true }) cpu0
     s.req.resetPending = false ∧ s.req.haltActive = true) ∧
    (let s := reqOf (fun r => { r with waitActive := true, nmiPending := true, irqPending := true })
        { cpu0 with i := true }
     s.req.resetPending = false ∧ s.req.haltActive = false ∧ s.req.waitActive = true ∧ s.req.nmiPending = true) ∧
    (let s := reqOf (fun r => { r with waitActive := true, irqPending := true }) cpu0
     s.req.resetPending = false ∧ s.req.haltActive = false ∧ s.req.waitActive = true ∧ s.req.nmiPending = false ∧
       s.req.irqPending = true ∧ s.cpu.i = false) ∧
    (let s := reqOf (fun r => { r with waitActive := true, irqPending := true }) { cpu0 with i := true }
     s.req.resetPending = false ∧ s.req.haltActive = false ∧ s.req.waitActive = true ∧ s.req.nmiPending = false ∧
       s.cpu.i = true) := by
  decide

/-- NMI with an IRQ beside it, IRQ alone, IRQ masked, and nothing pending. -/
theorem witness_InterruptsAtTheBoundary :
    (let s := reqOf (fun r => { r with nmiPending := true, irqPending := true }) cpu0
     s.req.resetPending = false ∧ s.req.haltActive = false ∧ s.req.waitActive = false ∧ s.req.nmiPending = true) ∧
    (let s := reqOf (fun r => { r with irqPending := true }) cpu0
     s.req.nmiPending = false ∧ s.req.irqPending = true ∧ s.cpu.i = false ∧ s.req.haltActive = false) ∧
    (let s := reqOf (fun r => { r with irqPending := true }) { cpu0 with i := true }
     s.req.nmiPending = false ∧ s.cpu.i = true ∧ boundaryArm s = .instruction) ∧
    boundaryArm (stateOf cpu0 []) = .instruction := by
  decide

/-- SP at 0x0003, so that the frame wraps to 0xFFFD in a map that is RAM all over: the three entries from there. -/
theorem witness_RtiUndoesAnEntry :
    let s := allRam { cpu0 with sp := 3, a := 0x56, c := true }
    ramDown s s.cpu.sp 7 ∧ Memory.wf s.mem = true ∧
    (takeNmi s).cfg = s.cfg ∧ (takeNmi s).cpu.sp = 0xFFFC ∧ (takeIrq s).cfg = s.cfg ∧ (takeIrq s).cpu.sp = 0xFFFC ∧
    nextIs (exec .swi s) (fun t => t.cfg == s.cfg && t.cpu.sp == 0xFFFC) = true := by
  unfold ramDown
  decide +kernel

theorem witness_ResetEventLeavesTheResetState :
    let s := viaOf fun v => { v with ifr := 1, ier := 1, irqLine := true }
    let s1 : State := { s with req := { s.req with irqPending := true } }
    s1.req.irqPending = s1.via.irqLine ∧ owner s1 s1.cfg.vecReset ≠ .via ∧ owner s1 (s1.cfg.vecReset + 1) ≠ .via := by
  decide +kernel

/-- A good state whose step is an IRQ entry, and one whose step stores to the VIA. -/
theorem witness_StepKeepsGood :
    (let s := viaOf fun v => { v with ifr := 1, ier := 1, irqLine := true }
     let s1 : State := { s with req := { s.req with irqPending := true } }
     Good s1 ∧ nextIs (step s1) (fun t => t.cpu.i) = true) ∧
    (let s := stateOf { cpu0 with a := 0xC0 } [(0x1000, 0xB7), (0x1001, 0xC8), (0x1002, 0x0E)]
     Good s ∧ nextIs (step s) (fun t => t.via.ier == 0x40) = true) := by
  decide +kernel

/-- A good state whose timeline of a CB1 change and a CPU step answers a next state, its flag raised and its line up. -/
theorem witness_EnvironmentKeepsGood :
    let s := viaOf fun v => { v with acr := 0x0C, srActive := true, srCount := 7, srPhase := .shift, ier := 4 }
    Good s ∧ nextIs (timeline [.env (.setCB1 true), .cpu] s) (fun t => t.via.irqLine && t.req.irqPending) = true := by
  decide +kernel

/-- A state with no VIA in its map, and WAI and a load from it. -/
theorem witness_OnlyWaiWritesALatch :
    (∀ a, owner (allRam cpu0) a ≠ .via) ∧ nextIs (exec .wai (allRam cpu0)) (fun t => t.req.waitActive) = true ∧
    nextIs (exec (.ldaa (.ext 0xC804)) (allRam cpu0)) (fun _ => true) = true :=
  ⟨fun a h => DeviceKind.noConfusion ((allRam_owner cpu0 a).symm.trans h), by decide, by decide +kernel⟩

/-- A store of two bytes at 0x00FF and 0x0100, and an address outside them; a form that stores nothing. -/
theorem witness_MemoryFrame :
    nextIs (exec (.stx (.dir 0xFF)) (stateOf cpu0 [])) (fun _ => true) = true ∧
    storedAddresses (.stx (.dir 0xFF)) (stateOf cpu0 []) = [0x00FF, 0x0100] ∧
    (∀ a ∈ ([0x00FF, 0x0100] : List Word), (0x10 : Nat) ≠ a.toNat) ∧
    storedAddresses (.tst (.ext 0x2000)) (stateOf cpu0 []) = [] :=
  ⟨by decide +kernel, by simp [storedAddresses, storeEa, eaDir, zext16], by simp, rfl⟩

/-- A store to ROM. -/
theorem witness_OnlyRamChanges :
    let s := stateOf { cpu0 with a := 0x55 } [(0x1000, 0xB7), (0x1001, 0xE0), (0x1002, 0x00)]
    nextIs (step s) (fun _ => true) = true ∧ owner s 0xE000 ≠ .ram := by
  decide +kernel

theorem witness_RegisterFrame :
    nextIs (exec (.adda (.imm 1)) (stateOf cpu0 [])) (fun _ => true) = true ∧
    CpuField.b ∉ destinations (.adda (.imm 1)) := by
  decide +kernel

/-- An address of each device kind, the first and the last of its region, and two that select one register. -/
theorem witness_ByteAccessesByOwner :
    let s := stateOf cpu0 [(0x3FFF, 0x11)]
    owner s 0x0000 = .ram ∧ owner s 0x3FFF = .ram ∧ Memory.wf s.mem = true ∧ owner s 0xE000 = .rom ∧
    owner s 0xFFFF = .rom ∧ owner s 0xD000 = .stub ∧ owner s 0x4000 = .stub ∧ owner s 0xC800 = .via ∧
    owner s 0xC80F = .via := by
  decide +kernel

/-- Two addresses of a wide VIA region that select one register. -/
theorem witness_ByteAccessesByOwner_repeat :
    let s0 := stateOf cpu0 []
    let s : State := { s0 with cfg := { s0.cfg with map := [⟨0xC800, 0xC8FF, .via⟩] } }
    (0xC814 : Word).toNat % 16 = (0xC804 : Word).toNat % 16 ∧ owner s 0xC814 = .via ∧ owner s 0xC804 = .via := by
  decide +kernel

/-- A word at 0xFFFF in a map that is RAM all over. -/
theorem witness_WordAccesses :
    let s := allRam cpu0
    owner s 0xFFFF = .ram ∧ owner s (0xFFFF + 1) = .ram ∧ Memory.wf s.mem = true := by
  decide +kernel

/-- A list of devices that is accepted, up to both ends of the space; two that are not. -/
theorem witness_MapOwnership :
    (∀ r ∈ ([⟨0, 0xFFFF, .ram⟩, ⟨0xFFFF, 0xFFFF, .rom⟩, ⟨0, 0, .via⟩] : List Region), r.first ≤ r.last ∧ r.last ≤ 0xFFFF) ∧
    (∃ r ∈ ([⟨5, 4, .ram⟩] : List Region), r.last < r.first ∨ 0xFFFF < r.last) ∧
    (∃ r ∈ ([⟨0, 0x10000, .ram⟩] : List Region), r.last < r.first ∨ 0xFFFF < r.last) := by
  decide

/-- A read with no side effect of each kind, a dropped write, and a write to the VIA. -/
theorem witness_SideEffectsOfAccesses :
    let s := stateOf cpu0 []
    owner s 0x0000 ≠ .via ∧ (owner s 0xC80F = .via ∧ (0xC80F : Word).toNat % 16 ∉ [0, 1, 4, 8, 10]) ∧
    owner s 0xFFFF = .rom ∧ owner s 0xC810 = .stub ∧ owner s 0xC800 = .via := by
  decide +kernel

theorem witness_DecimalAdjust :
    (stateOf { cpu0 with a := 0x99 } []).cpu.a = packedBcd 99 ∧ (0 : Nat) < 100 ∧
    (stateOf cpu0 []).cpu.a = packedBcd 0 := by
  decide

theorem witness_MemoryImmediate :
    (stateOf cpu0 []).cfg.memImmFlagOverrides.lookup 0xFF = none ∧
    (stateOf cpu0 []).cfg.tmmFlagOverrides.lookup (0x00, 0xFF) = none := by
  decide

/-- For each condition of the simple branches, registers where it holds and registers where it does not (BRA: where
it holds). -/
theorem witness_SimpleBranches :
    let k1 : Cpu := { cpu0 with c := true, z := true, v := true, n := true }
    (cpu0.c = false ∧ cpu0.z = false) ∧ ¬(k1.c = false ∧ k1.z = false) ∧ (k1.c = true ∨ k1.z = true) ∧
    ¬(cpu0.c = true ∨ cpu0.z = true) ∧ cpu0.v = false ∧ k1.v = true ∧ cpu0.n = false ∧ k1.n = true := by
  decide

theorem witness_SignedBranches :
    let k1 : Cpu := { cpu0 with n := true }
    let k2 : Cpu := { cpu0 with z := true }
    cpu0.n = cpu0.v ∧ k1.n ≠ k1.v ∧ (cpu0.z = false ∧ cpu0.n = cpu0.v) ∧ ¬(k2.z = false ∧ k2.n = k2.v) ∧
    (k2.z = true ∨ k2.n ≠ k2.v) ∧ ¬(cpu0.z = true ∨ cpu0.n ≠ cpu0.v) := by
  decide

/-- 0x80 against 0x7F: higher unsigned, less signed. -/
theorem witness_BranchAfterCompare :
    let s := stateOf { cpu0 with a := 0x80 } []
    nextIs (exec (.cmpa (.imm 0x7F)) s) (fun _ => true) = true ∧ (0x7F : Byte).toNat < s.cpu.a.toNat ∧
    ¬(0x7F : Byte).toInt ≤ s.cpu.a.toInt ∧ s.cpu.a ≠ 0x7F := by
  decide +kernel

/-- SP at 0x0000, so that the return address wraps to 0xFFFF in a map that is RAM all over. -/
theorem witness_ReturnComesBackFromACall :
    let s := allRam { cpu0 with sp := 0 }
    (∃ rel, Instr.bsr 0x10 = .bsr rel) ∧ (∃ m, Instr.jsr (.ext 0x2000) = .jsr m) ∧ ramDown s s.cpu.sp 2 ∧
    Memory.wf s.mem = true ∧
    nextIs (exec (.bsr 0x10) s) (fun t => t.cfg == s.cfg && t.cpu.sp == 0xFFFE) = true := by
  unfold ramDown
  exact ⟨⟨_, rfl⟩, ⟨_, rfl⟩, by decide +kernel, by decide +kernel, by decide +kernel⟩

/-- An address of the VIA for each of its sixteen registers. -/
theorem witness_PortRegisters :
    ∀ n < 16, owner (stateOf cpu0 []) (0xC800 + BitVec.ofNat 16 n) = .via ∧
      (0xC800 + BitVec.ofNat 16 n : Word).toNat % 16 = n := by
  decide +kernel

theorem witness_TimerRegisters :
    owner (stateOf cpu0 []) 0xC804 = .via ∧ (0xC804 : Word).toNat % 16 = 4 ∧
    owner (stateOf cpu0 []) 0xC809 = .via ∧ (0xC809 : Word).toNat % 16 = 9 := by
  decide +kernel

theorem witness_ShiftAndControlRegisters :
    owner (stateOf cpu0 []) 0xC80A = .via ∧ (0xC80A : Word).toNat % 16 = 10 ∧
    owner (stateOf cpu0 []) 0xC80C = .via ∧ (0xC80C : Word).toNat % 16 = 12 := by
  decide +kernel

theorem witness_InterruptRegisters :
    owner (stateOf cpu0 []) 0xC80D = .via ∧ (0xC80D : Word).toNat % 16 = 13 ∧
    owner (stateOf cpu0 []) 0xC80E = .via ∧ (0xC80E : Word).toNat % 16 = 14 := by
  decide +kernel

/-- The grace tick, a decrement from 1 and from 0xFFFF, and an expiry. -/
theorem witness_TimerOneTick :
    (viaOf fun v => { v with t1JustLoaded := true }).via.t1JustLoaded = true ∧
    (let v := (viaOf fun v => { v with t1c := 1 }).via
     v.t1JustLoaded = false ∧ 0 < v.t1c.toNat) ∧
    (let v := (viaOf fun v => { v with t1c := 0xFFFF }).via
     v.t1JustLoaded = false ∧ 0 < v.t1c.toNat) ∧
    (let v := (viaOf fun v => { v with t1Armed := true }).via
     v.t1JustLoaded = false ∧ v.t1c.toNat = 0) := by
  decide

/-- A free-running tick that counts, at 1 and at 0, a grace tick, and in pulse mode a falling edge and none. -/
theorem witness_TimerTwoTick :
    let counts := timer2Counts
    let v0 := (viaOf id).via
    counts { v0 with t2c := 1 } = true ∧ counts { v0 with t2c := 0 } = true ∧
    counts { v0 with t2JustLoaded := true } = false ∧ counts { v0 with acr := 0x20, pb6Prev := true } = true ∧
    counts { v0 with acr := 0x20, pb6Prev := true, pbIn := 0x40 } = false := by
  decide

theorem witness_TimerOnePeriod :
    let s := viaOf fun v => { v with acr := 0xC0, t1l := 0x0003 }
    owner s 0xC805 = .via ∧ (0xC805 : Word).toNat % 16 = 5 ∧ s.via.acr.getLsbD 7 = true ∧
    s.via.acr.getLsbD 6 = true := by
  decide +kernel

theorem witness_ShiftInUnderCB1 :
    let s := viaOf fun v => { v with acr := 0x0C, srActive := true }
    let bits := [true, false, true, true, false, false, true, false]
    s.via.acr.toNat / 4 % 8 = 3 ∧ s.via.srActive = true ∧ s.via.srCount = 0 ∧ s.via.srPhase = .notify ∧
    s.via.ifr.getLsbD 2 = false ∧ bits.length = 8 ∧
    (bits.foldl (fun u b => serialBit b u) s).via.sr = 0xB2 := by
  decide +kernel

/-- A halted and an active shift register; a completing phase; a tick that clocks it by the clock and by an expiry of the
unarmed timer 2, and one that does not; a change of CB1 in modes 0b011 and 0b111 and in mode 0b110; the armed byte. -/
theorem witness_ShiftRegisterClocking :
    let of := fun acr : Byte => (viaOf fun v => { v with acr := acr, srActive := true, t2c := 1 }).via
    tickClocksSr (of 0x18) = true ∧ tickClocksSr (of 0x08) = true ∧ tickClocksSr (of 0x14) = false ∧
    tickClocksSr { of 0x14 with t2c := 0 } = true ∧ tickClocksSr { of 0x10 with t2c := 0 } = true ∧
    tickClocksSr { of 0x04 with t2c := 0 } = true ∧ tickClocksSr { of 0x1C with t2c := 0 } = false ∧
    tickClocksSr { of 0x00 with t2c := 0 } = false ∧ tickClocksSr { of 0x0C with t2c := 0 } = false ∧
    phaseCompletes { of 0x18 with srPhase := .shift, srCount := 7 } = true ∧
    phaseCompletes { of 0x18 with srPhase := .shift, srCount := 6 } = false ∧
    (of 0x0C).cb1In ≠ true ∧ srMode (of 0x0C) = 3 ∧ srMode (of 0x1C) = 7 ∧
    (let v := (viaOf fun v => { v with acr := 0x18, srActive := true, sr := 0xB2 }).via
     srMode v = 6 ∧ v.srActive = true ∧ v.srCount = 0 ∧ v.srPhase = .notify ∧ v.ifr.getLsbD 2 = false) := by
  decide +kernel

/-- The three accesses that start a pulse, and a CB2 pulse that meets a shift out of 0. -/
theorem witness_PulseLastsOneTick :
    (let s := viaOf fun v => { v with pcr := 0x0A }
     owner s 0xC801 = .via ∧ (0xC801 : Word).toNat % 16 = 1 ∧ s.via.pcr.toNat / 2 % 8 = 5 ∧
     (load8 0xC801 s).2.via.ca2Pulse = true) ∧
    (let s := viaOf fun v => { v with pcr := 0xA0 }
     owner s 0xC800 = .via ∧ (0xC800 : Word).toNat % 16 = 0 ∧ s.via.pcr.toNat / 32 = 5 ∧ s.via.srActive = false) ∧
    (let s := viaOf fun v => { v with pcr := 0xA0, acr := 0x18, srActive := true }
     owner s 0xC800 = .via ∧ s.via.pcr.toNat / 32 = 5 ∧ (tick (store8 0xC800 0 s)).via.cb2Out = false) := by
  decide +kernel

/-- One phase of modes 0b101 (out, at timer 2 expiries) and 0b111 (out, under CB1): the notify phase presents bit 7, and only
the first lowers CB1; the shift phase of mode 0b001 takes in CB2 (47_via_tick R352). -/
theorem test_phases :
    (let t := (tick (viaOf fun v => { v with acr := 0x14, srActive := true, sr := 0x7F })).via
     t.cb1Out = false ∧ t.cb2Out = false ∧ t.srPhase = .shift) ∧
    (let t := (setCB1 true (viaOf fun v => { v with acr := 0x1C, srActive := true, sr := 0x7F })).via
     t.cb1Out = true ∧ t.cb2Out = false ∧ t.srPhase = .shift) ∧
    (let t := (tick (viaOf fun v => { v with acr := 0x04, srActive := true, srPhase := .shift, cb2In := true, sr := 0x81 })).via
     t.sr = 0x03 ∧ t.srCount = 1 ∧ t.cb1Out = true) := by
  decide +kernel

/-- The level each line has at reset. -/
theorem witness_ControlLineEvents :
    let v := (viaOf id).via
    v.ca1In = false ∧ v.ca2In = false ∧ v.cb1In = false ∧ v.cb2In = false := by
  decide

theorem witness_ExecuteReturns :
    (∀ op, 0 < cyclesOf (stateOf cpu0 []).cfg op) ∧ 0 < (stateOf cpu0 []).cfg.intEntryCycles := by
  decide +kernel


-- The assembler's operand forms (30_encoding R113).

theorem test_asm_forms :
    asmOperand8 (.plain 0xFF) = some (.dir 0xFF) ∧ asmOperand8 (.plain 0x100) = some (.ext 0x100) ∧
    asmOperand8 (.forced 0x12) = some (.ext 0x12) ∧ asmOperand8 .bareX = some (.idx 0) ∧
    asmOperand8 (.hash 0x100) = none ∧ asmOperand16 (.hash 0x100) = some (.imm 0x100) ∧
    asmMemAddr (.plain 0x12) = some (.ext 0x12) ∧ asmStoreAddr (.hash 1) = none ∧
    asmImmIndexed (.hashIndexed 1 2) = some (1, 2) := by decide

/-- The target of a branch at 0x1000: the ends of the range and the first label beyond each. -/
theorem test_asm_branch :
    asmRel 0x1000 0x1000 = some 0xFE ∧ asmRel 0x1000 0x1081 = some 0x7F ∧ asmRel 0x1000 0x1082 = none ∧
    asmRel 0x1000 0x0F82 = some 0x80 ∧ asmRel 0x1000 0x0F81 = none ∧ relTarget 0x1002 0x80 = 0x0F82 := by decide

end Sys2Proof.Tests
end

section
/-! PROOF. What an instruction and a step are made of, said once (10_state R24, R26, R46): the relation
`CpuEffects` of the accesses and register writes of an instruction, and the package `StepInvariant` of what
every step keeps. The settled statements of the family 10_state follow. -/

namespace Sys2Proof.Machine

-- Register frames.

/-- `k'` has the registers and flags of `k` outside the fields `ds`. -/
def KeepsOutside (ds : List CpuField) (k k' : Cpu) : Prop := ∀ f : CpuField, f ∉ ds → k'.field f = k.field f

theorem KeepsOutside.refl (ds : List CpuField) (k : Cpu) : KeepsOutside ds k k := fun _ _ => rfl

theorem KeepsOutside.trans {ds : List CpuField} {k k' k'' : Cpu} (h : KeepsOutside ds k k')
    (h' : KeepsOutside ds k' k'') : KeepsOutside ds k k'' :=
  fun f hf => (h' f hf).trans (h f hf)

/-- `k` with the fields `ds` taken from `k'`. -/
def Cpu.overwrite (ds : List CpuField) (k k' : Cpu) : Cpu where
  a := bif ds.contains .a then k'.a else k.a
  b := bif ds.contains .b then k'.b else k.b
  ix := bif ds.contains .ix then k'.ix else k.ix
  sp := bif ds.contains .sp then k'.sp else k.sp
  pc := bif ds.contains .pc then k'.pc else k.pc
  h := bif ds.contains .h then k'.h else k.h
  i := bif ds.contains .i then k'.i else k.i
  n := bif ds.contains .n then k'.n else k.n
  z := bif ds.contains .z then k'.z else k.z
  v := bif ds.contains .v then k'.v else k.v
  c := bif ds.contains .c then k'.c else k.c

/-- A record that differs from `k` in the fields `ds` only keeps the others. For a computation on the CPU
record and a given list the hypothesis holds by evaluation. -/
theorem keepsOutside_of_overwrite {ds : List CpuField} {k k' : Cpu} (h : k' = Cpu.overwrite ds k k') :
    KeepsOutside ds k k' := by
  intro f hf
  have hc : ds.contains f = false := by simpa using hf
  rw [h]
  cases f <;> simp only [Cpu.field, Cpu.overwrite, hc, cond_false]

theorem keepsOutside_sp {ds : List CpuField} (h : .sp ∈ ds) (k : Cpu) (v : Word) :
    KeepsOutside ds k { k with sp := v } := by
  intro f hf
  cases f
  case sp => exact absurd h hf
  all_goals rfl

theorem keepsOutside_pc {ds : List CpuField} (h : .pc ∈ ds) (k : Cpu) (v : Word) :
    KeepsOutside ds k { k with pc := v } := by
  intro f hf
  cases f
  case pc => exact absurd h hf
  all_goals rfl

-- What an instruction is made of.

/-- `t` is reached from `s` by reads, writes, costs, and changes of the CPU record in the fields `ds`. Every
instruction but WAI is such a sequence, and so are the fetch and interrupt entry (00_scope R10). -/
inductive CpuEffects (ds : List CpuField) (s : State) : State → Prop where
  | refl : CpuEffects ds s s
  | cpu {t : State} (k : Cpu) (hk : KeepsOutside ds t.cpu k) (h : CpuEffects ds s t) :
      CpuEffects ds s { t with cpu := k }
  | cost {t : State} (n : Nat) (h : CpuEffects ds s t) : CpuEffects ds s (addCost n t)
  | load {t : State} (a : Word) (h : CpuEffects ds s t) : CpuEffects ds s (load8 a t).2
  | store {t : State} (a : Word) (v : Byte) (h : CpuEffects ds s t) : CpuEffects ds s (store8 a v t)

namespace CpuEffects

variable {ds : List CpuField} {s t : State}

theorem onCpu (f : Cpu → Cpu) (hf : KeepsOutside ds t.cpu (f t.cpu)) (h : CpuEffects ds s t) :
    CpuEffects ds s (onCpu f t) := h.cpu _ hf

/-- A computation on the CPU record that writes fields of `ds` only, as evaluation shows. -/
theorem compute {f : Cpu → Cpu} (hf : ∀ k, f k = Cpu.overwrite ds k (f k)) (h : CpuEffects ds s t) :
    CpuEffects ds s (Machine.onCpu f t) := h.cpu _ (keepsOutside_of_overwrite (hf _))

theorem load16 (a : Word) (h : CpuEffects ds s t) : CpuEffects ds s (load16 a t).2 := (h.load a).load (a + 1)

theorem store16 (a v : Word) (h : CpuEffects ds s t) : CpuEffects ds s (store16 a v t) :=
  (h.store a _).store (a + 1) _

theorem push8 (hsp : .sp ∈ ds) (v : Byte) (h : CpuEffects ds s t) : CpuEffects ds s (push8 v t) :=
  (h.store _ v).onCpu _ (keepsOutside_sp hsp _ _)

theorem push16 (hsp : .sp ∈ ds) (v : Word) (h : CpuEffects ds s t) : CpuEffects ds s (push16 v t) :=
  (h.push8 hsp _).push8 hsp _

theorem pushAll (hsp : .sp ∈ ds) (h : CpuEffects ds s t) : CpuEffects ds s (pushAll t) :=
  ((((h.push16 hsp _).push16 hsp _).push8 hsp _).push8 hsp _).push8 hsp _

theorem pull8 (hsp : .sp ∈ ds) (h : CpuEffects ds s t) : CpuEffects ds s (pull8 t).2 :=
  (h.onCpu _ (keepsOutside_sp hsp _ _)).load _

theorem pull16 (hsp : .sp ∈ ds) (h : CpuEffects ds s t) : CpuEffects ds s (pull16 t).2 :=
  (h.pull8 hsp).pull8 hsp

/-- A pulled byte written to the CPU record. -/
theorem pull8Into (hsp : .sp ∈ ds) (g : Byte → Cpu → Cpu) (hg : ∀ v k, KeepsOutside ds k (g v k))
    (h : CpuEffects ds s t) :
    CpuEffects ds s (Machine.onCpu (g (Machine.pull8 t).1) (Machine.pull8 t).2) :=
  (h.pull8 hsp).onCpu _ (hg _ _)

/-- A pulled word written to the CPU record. -/
theorem pull16Into (hsp : .sp ∈ ds) (g : Word → Cpu → Cpu) (hg : ∀ v k, KeepsOutside ds k (g v k))
    (h : CpuEffects ds s t) :
    CpuEffects ds s (Machine.onCpu (g (Machine.pull16 t).1) (Machine.pull16 t).2) :=
  (h.pull16 hsp).onCpu _ (hg _ _)

theorem jumpTo (hpc : .pc ∈ ds) (target : Word) (h : CpuEffects ds s t) : CpuEffects ds s (jumpTo target t) :=
  h.onCpu _ (keepsOutside_pc hpc _ _)

theorem readOperand8 (m : Operand8) (h : CpuEffects ds s t) : CpuEffects ds s (readOperand8 m t).2 := by
  cases m
  case imm => exact h
  all_goals exact h.load _

theorem readOperand16 (m : Operand16) (h : CpuEffects ds s t) : CpuEffects ds s (readOperand16 m t).2 := by
  cases m
  case imm => exact h
  all_goals exact h.load16 _

theorem readAdxOperand (m : AdxOperand) (h : CpuEffects ds s t) : CpuEffects ds s (readAdxOperand m t).2 := by
  cases m
  case imm => exact h
  case ext a => exact h.load16 a

theorem fetch8 (hpc : .pc ∈ ds) (h : CpuEffects ds s t) : CpuEffects ds s (fetch8 t).2 :=
  (h.load t.cpu.pc).onCpu (fun k => { k with pc := k.pc + 1 }) (keepsOutside_pc hpc _ _)

theorem fetchMany (hpc : .pc ∈ ds) (n : Nat) (h : CpuEffects ds s t) : CpuEffects ds s (fetchMany n t).2 := by
  induction n generalizing t with
  | zero => exact h
  | succ n ih => exact ih (h.fetch8 hpc)

end CpuEffects

/-- A fetch reads memory and moves pc. -/
theorem fetchInstr_effects (s : State) : CpuEffects [.pc] s (fetchInstr s).2 :=
  (CpuEffects.refl.fetch8 (List.mem_singleton_self _)).fetchMany (List.mem_singleton_self _) _

section Shapes

variable {ds : List CpuField} (s : State)

theorem withOperand8_effects (m : Operand8) {f : Byte → Cpu → Cpu}
    (hf : ∀ v k, f v k = Cpu.overwrite ds k (f v k)) : CpuEffects ds s (withOperand8 m f s) :=
  (CpuEffects.refl.readOperand8 m).compute (hf _)

theorem withOperand16_effects (m : Operand16) {f : Word → Cpu → Cpu}
    (hf : ∀ v k, f v k = Cpu.overwrite ds k (f v k)) : CpuEffects ds s (withOperand16 m f s) :=
  (CpuEffects.refl.readOperand16 m).compute (hf _)

/-- The flags of a read-modify-write come from the record before the write, which the write keeps. -/
theorem modifyByte_effects (ea : Word) {f : Byte → Cpu → Byte × Cpu}
    (hf : ∀ v k, (f v k).2 = Cpu.overwrite ds k (f v k).2) : CpuEffects ds s (modifyByte ea f s) := by
  refine ((CpuEffects.refl.load ea).store ea _).cpu _ ?_
  rw [(store8_frame ea _ _).cpu]
  exact keepsOutside_of_overwrite (hf _ _)

theorem testByte_effects (ea : Word) {f : Byte → Cpu → Cpu}
    (hf : ∀ v k, f v k = Cpu.overwrite ds k (f v k)) : CpuEffects ds s (testByte ea f s) :=
  (CpuEffects.refl.load ea).compute (hf _)

theorem branchIf_effects (hpc : .pc ∈ ds) (cond : Bool) (rel : Byte) :
    CpuEffects ds s (branchIf cond rel s) := by
  cases cond
  case false => exact .refl
  case true => exact CpuEffects.refl.jumpTo hpc _

/-- The frame is pushed, I set, and pc loaded from the vector (60_exceptions R404). -/
theorem enterThroughVector_effects (vec : Word) (n : Nat) :
    CpuEffects [.sp, .i, .pc] s (enterThroughVector vec n s) := by
  have hpush : CpuEffects [.sp, .i, .pc] s (pushAll s) := CpuEffects.refl.pushAll (by decide)
  have hmask := hpush.compute (f := fun k => { k with i := true }) fun _ => rfl
  exact ((hmask.load16 vec).onCpu _ (keepsOutside_pc (by decide) _ _)).cost n

/-- RTI writes every register and flag (44_system R259). -/
theorem pullAll_effects : CpuEffects (destinations .rti) s (pullAll s) := by
  have hsp : CpuField.sp ∈ destinations .rti := by decide
  have hall (k k' : Cpu) : KeepsOutside (destinations .rti) k k' := keepsOutside_of_overwrite rfl
  have hcc := (CpuEffects.refl (s := s)).pull8Into hsp Cpu.setCcr fun _ _ => hall _ _
  have hb := hcc.pull8Into hsp (fun v k => { k with b := v }) fun _ _ => hall _ _
  have ha := hb.pull8Into hsp (fun v k => { k with a := v }) fun _ _ => hall _ _
  have hx := ha.pull16Into hsp (fun v k => { k with ix := v }) fun _ _ => hall _ _
  exact hx.pull16Into hsp (fun v k => { k with pc := v }) fun _ _ => hall _ _

end Shapes

theorem finish_effects {ds : List CpuField} {s t : State} {op : Byte} (h : CpuEffects ds s t) :
    ∃ u, finish op t = .next u ∧ CpuEffects ds s u := ⟨_, rfl, h.cost _⟩

/-- Every instruction but WAI is a sequence of accesses, costs, and writes of the registers and flags that
its rule names; the cases follow the shapes of the meanings. -/
theorem exec_effects (i : Instr) (s : State) (hi : i ≠ .wai) :
    ∃ t, exec i s = .next t ∧ CpuEffects (destinations i) s t := by
  cases i with
  | ldaa m | ldab m | adda m | addb m | adca m | adcb m | suba m | subb m | sbca m | sbcb m | cmpa m
  | cmpb m | anda m | andb m | bita m | bitb m | oraa m | orab m | eora m | eorb m =>
    exact finish_effects (withOperand8_effects s m fun _ _ => rfl)
  | ldx m | lds m | cpx m => exact finish_effects (withOperand16_effects s m fun _ _ => rfl)
  | adx m =>
    exact finish_effects ((CpuEffects.refl.readAdxOperand m).compute fun _ => rfl)
  | staa m | stab m => exact finish_effects ((CpuEffects.refl.store _ _).compute fun _ => rfl)
  | stx m | sts m => exact finish_effects ((CpuEffects.refl.store16 _ _).compute fun _ => rfl)
  | tab | tba | tap | tpa | tsx | txs | aba | sba | cba | nega | negb | inca | incb | deca | decb | clra
  | clrb | tsta | tstb | daa | inx | dex | ins | des | coma | comb | asla | aslb | asra | asrb | lsra
  | lsrb | rola | rolb | rora | rorb | clc | sec | clv | sev | cli | sei =>
    exact finish_effects (CpuEffects.refl.compute fun _ => rfl)
  | neg m | inc m | dec m | com m | asl m | asr m | lsr m | rol m | ror m =>
    exact finish_effects (modifyByte_effects s _ fun _ _ => rfl)
  | nim imm off | oim imm off | xim imm off =>
    exact finish_effects (modifyByte_effects s _ fun _ _ => rfl)
  | clr m => exact finish_effects ((CpuEffects.refl.store _ _).compute fun _ => rfl)
  | tst m => exact finish_effects (testByte_effects s _ fun _ _ => rfl)
  | tmm imm off => exact finish_effects (testByte_effects s _ fun _ _ => rfl)
  | psha | pshb => exact finish_effects (CpuEffects.refl.push8 (List.mem_singleton_self _) _)
  | pula | pulb =>
    exact finish_effects
      ((CpuEffects.refl.pull8 (List.mem_cons_of_mem _ (List.mem_singleton_self _))).compute fun _ => rfl)
  | bra rel | bhi rel | bls rel | bcc rel | bcs rel | bne rel | beq rel | bvc rel | bvs rel | bpl rel
  | bmi rel | bge rel | blt rel | bgt rel | ble rel =>
    exact finish_effects (branchIf_effects s (List.mem_singleton_self _) _ rel)
  | jmp m => exact finish_effects (CpuEffects.refl.jumpTo (List.mem_singleton_self _) _)
  | jsr m | bsr rel =>
    exact finish_effects
      ((CpuEffects.refl.push16 List.mem_cons_self _).jumpTo
        (List.mem_cons_of_mem _ (List.mem_singleton_self _)) _)
  | rts =>
    exact finish_effects
      ((CpuEffects.refl.pull16 List.mem_cons_self).jumpTo
        (List.mem_cons_of_mem _ (List.mem_singleton_self _)) _)
  | nop => exact finish_effects .refl
  | swi => exact ⟨_, rfl, enterThroughVector_effects s _ _⟩
  | rti => exact finish_effects (pullAll_effects s)
  | unrecognised op => exact ⟨_, rfl, CpuEffects.refl.cost 1⟩
  | wai => exact absurd rfl hi

end Sys2Proof.Machine
end

section
/-! PROOF. What every step keeps: the VIA invariants of 10_state R46 along each VIA operation, and the
package `StepInvariant`, which turns "kept by each access, write and tick" into "kept by every step". -/

namespace Sys2Proof.Machine

-- The VIA invariants along the VIA operations.

/-- What the VIA invariants look at: the line, the flags, the enables, and the progress of the shift register. -/
def Via.watched (v : Via) : Bool × BitVec 7 × BitVec 7 × Nat × Bool := (v.irqLine, v.ifr, v.ier, v.srCount, v.srActive)

/-- A change of other fields of the VIA record keeps the invariants. -/
theorem mapVia_watched_invariant {f : Via → Via} {s : State} (hf : (f s.via).watched = s.via.watched)
    (h : ViaInvariant s) : ViaInvariant (mapVia f s) := by
  simp only [Via.watched, Prod.mk.injEq] at hf
  obtain ⟨hline, hifr, hier, hcount, hactive⟩ := hf
  obtain ⟨-, -, hle, hlt⟩ := id h
  refine mapVia_invariant h hline ?_ (hcount ▸ hle) fun ha => hcount ▸ hlt (hactive ▸ ha)
  rw [Via.composite, Via.composite, hifr, hier]

theorem handshakeA_watched (v : Via) : (handshakeA v).watched = v.watched := by
  unfold handshakeA
  split <;> rfl

theorem handshakeB_watched (v : Via) : (handshakeB v).watched = v.watched := by
  unfold handshakeB
  split <;> rfl

theorem pcrSideA_watched (v : Via) : (pcrSideA v).watched = v.watched := by
  unfold pcrSideA
  split <;> rfl

theorem pcrSideB_watched (v : Via) : (pcrSideB v).watched = v.watched := by
  unfold pcrSideB
  split <;> rfl

theorem t1Behaviour_watched (v : Via) : (t1Behaviour v).watched = v.watched := by
  unfold t1Behaviour
  split <;> rfl

/-- Arming starts at 0 transfers, so the bounds hold whatever the mode (47_via_tick R354). -/
theorem mapVia_srArm_invariant {s : State} (h : ViaInvariant s) : ViaInvariant (mapVia srArm s) :=
  mapVia_invariant h rfl rfl (Nat.zero_le 8) fun _ => Nat.zero_lt_succ 7

theorem viaReadEffect_invariant (reg : ViaReg) {s : State} (h : ViaInvariant s) :
    ViaInvariant (viaReadEffect reg s) := by
  cases reg
  case orb => exact clearFlags_invariant _ h
  case ora => exact mapVia_watched_invariant (handshakeA_watched _) (clearFlags_invariant _ h)
  case t1cl => exact clearFlags_invariant _ h
  case t2cl => exact clearFlags_invariant _ h
  case sr => exact mapVia_srArm_invariant (clearFlags_invariant _ h)
  all_goals exact h

theorem writeT1CounterHigh_invariant (d : Byte) {s : State} (h : ViaInvariant s) :
    ViaInvariant (writeT1CounterHigh d s) := by
  refine mapVia_watched_invariant ?_ (clearFlags_invariant _ (mapVia_watched_invariant rfl h))
  split <;> rfl

theorem writeT2CounterHigh_invariant (d : Byte) {s : State} (h : ViaInvariant s) :
    ViaInvariant (writeT2CounterHigh d s) :=
  mapVia_watched_invariant rfl
    (clearFlags_invariant _ (mapVia_watched_invariant rfl h))

theorem mapVia_writeAcr_invariant (d : Byte) {s : State} (h : ViaInvariant s) :
    ViaInvariant (mapVia (writeAcr d) s) := by
  have hacr : ViaInvariant (mapVia (fun v => { v with acr := d }) s) :=
    mapVia_watched_invariant rfl h
  unfold mapVia writeAcr
  dsimp only
  split
  · exact mapVia_srArm_invariant hacr
  · exact hacr

theorem writeIer_invariant (d : Byte) {s : State} (h : ViaInvariant s) : ViaInvariant (writeIer d s) := by
  obtain ⟨-, -, hle, hlt⟩ := id h
  exact updateIrq_mapVia_invariant h rfl hle hlt

theorem viaWrite_invariant (reg : ViaReg) (d : Byte) {s : State} (h : ViaInvariant s) :
    ViaInvariant (viaWrite reg d s) := by
  have same {f : Via → Via} (hf : (f s.via).watched = s.via.watched) : ViaInvariant (mapVia f s) :=
    mapVia_watched_invariant hf h
  cases reg
  case orb =>
    exact mapVia_watched_invariant (handshakeB_watched _) (clearFlags_invariant _ (same rfl))
  case ora =>
    exact mapVia_watched_invariant (handshakeA_watched _) (clearFlags_invariant _ (same rfl))
  case t1ch => exact writeT1CounterHigh_invariant d h
  case t1lh => exact clearFlags_invariant _ (same rfl)
  case t2ch => exact writeT2CounterHigh_invariant d h
  case sr => exact mapVia_srArm_invariant (clearFlags_invariant _ (same rfl))
  case acr => exact mapVia_writeAcr_invariant d h
  case pcr =>
    exact same ((pcrSideB_watched _).trans (pcrSideA_watched _))
  case ifr => exact clearFlags_invariant _ h
  case ier => exact writeIer_invariant d h
  all_goals exact same rfl

theorem t1Tick_invariant {s : State} (h : ViaInvariant s) : ViaInvariant (t1Tick s) := by
  unfold t1Tick t1Expire
  dsimp only
  split
  · exact mapVia_watched_invariant rfl h
  · split
    · split
      · have hflag := mapVia_watched_invariant (t1Behaviour_watched _) (setFlag_invariant .t1 h)
        exact mapVia_watched_invariant rfl hflag
      · exact mapVia_watched_invariant rfl h
    · exact mapVia_watched_invariant rfl h

theorem t2Count_invariant {s : State} (h : ViaInvariant s) : ViaInvariant (t2Count s).1 := by
  unfold t2Count t2Expire
  dsimp only
  split
  · split
    · exact mapVia_watched_invariant rfl
        (mapVia_watched_invariant rfl (setFlag_invariant .t2 h))
    · exact mapVia_watched_invariant rfl h
  · exact mapVia_watched_invariant rfl h

theorem t2Tick_invariant {s : State} (h : ViaInvariant s) : ViaInvariant (t2Tick s).1 := by
  have hsample : ViaInvariant (mapVia samplePb6 s) := mapVia_watched_invariant rfl h
  unfold t2Tick
  dsimp only
  split
  · split
    · exact t2Count_invariant hsample
    · exact hsample
  · split
    · exact mapVia_watched_invariant rfl hsample
    · exact t2Count_invariant hsample

/-- `srDone()` needs only R46(b) and the bound of 8: it halts the shift register. -/
theorem srDone_invariant {s : State} (hpending : s.req.irqPending = s.via.irqLine) (hle : s.via.srCount ≤ 8) :
    ViaInvariant (srDone s) := by
  refine ⟨updateIrq_line _, updateIrq_pending hpending, ?_, fun hactive => absurd hactive Bool.false_ne_true⟩
  rw [srDone, setFlag, mapVia_via, updateIrq_via]
  exact hle

/-- The eighth transfer halts the shift register, so an active one has done fewer (47_via_tick R352, R355). -/
theorem srStep_invariant {s : State} (h : ViaInvariant s) : ViaInvariant (srStep s) := by
  obtain ⟨-, hpending, -, hlt⟩ := id h
  unfold srStep
  split
  · next hactive =>
    have hcount : s.via.srCount + 1 ≤ 8 := hlt hactive
    split
    · exact mapVia_watched_invariant rfl h
    · dsimp only
      split
      · exact srDone_invariant hpending hcount
      · next hne => exact mapVia_invariant h rfl rfl hcount fun _ => Nat.lt_of_le_of_ne hcount hne
  · exact h

theorem srClock_invariant (e : Bool) {s : State} (h : ViaInvariant s) : ViaInvariant (srClock e s) := by
  unfold srClock
  split
  · exact srStep_invariant h
  · split
    · exact srStep_invariant h
    · exact h
  · exact h
  · exact h

theorem tick_invariant {s : State} (h : ViaInvariant s) : ViaInvariant (tick s) :=
  srClock_invariant _ (t2Tick_invariant (t1Tick_invariant
    (mapVia_watched_invariant (f := pulseEnd) rfl h)))

theorem load8_invariant (a : Word) {s : State} (h : ViaInvariant s) : ViaInvariant (load8 a s).2 := by
  by_cases hvia : owner s a = .via
  · rw [load8_via hvia]; exact viaReadEffect_invariant _ h
  · rw [load8_plain hvia]; exact h

theorem store8_invariant (a : Word) (v : Byte) {s : State} (h : ViaInvariant s) :
    ViaInvariant (store8 a v s) := by
  unfold store8
  split
  · exact h
  · exact viaWrite_invariant _ v h
  · exact h
  · exact h

-- What every step keeps.

/-- `P` is kept by all that a step is made of: register writes, the clock, the latches other than `irqPending`,
reads, stores and ticks. -/
structure StepInvariant (P : State → Prop) : Prop where
  cpu : ∀ {s : State} (k : Cpu), P s → P { s with cpu := k }
  clock : ∀ {s : State} (n : Nat), P s → P { s with clock := n }
  latches : ∀ {s : State} (r : Requests), r.irqPending = s.req.irqPending → P s → P { s with req := r }
  load : ∀ {s : State} (a : Word), P s → P (load8 a s).2
  store : ∀ {s : State} (a : Word) (v : Byte), P s → P (store8 a v s)
  tick : ∀ {s : State}, P s → P (tick s)

namespace StepInvariant

variable {P : State → Prop} {s t : State}

theorem of_effects (hP : StepInvariant P) {ds : List CpuField} (h : CpuEffects ds s t) (hs : P s) : P t := by
  induction h with
  | refl => exact hs
  | cpu k _ _ ih => exact hP.cpu k ih
  | cost n _ ih => exact hP.clock _ ih
  | load a _ ih => exact hP.load a ih
  | store a v _ ih => exact hP.store a v ih

theorem of_exec (hP : StepInvariant P) {i : Instr} (h : exec i s = .next t) (hs : P s) : P t := by
  by_cases hi : i = .wai
  · subst hi
    obtain rfl := Host.Outcome.next.inj h
    exact hP.clock _ (hP.latches { s.req with waitActive := true } rfl hs)
  · obtain ⟨u, hu, heff⟩ := exec_effects i s hi
    obtain rfl := Host.Outcome.next.inj (hu.symm.trans h)
    exact hP.of_effects heff hs

theorem of_takeReset (hP : StepInvariant P) (hs : P s) : P (takeReset s) := by
  have hlatches :=
    hP.latches { s.req with resetPending := false, waitActive := false, nmiPending := false } rfl hs
  have hvector := hP.load s.cfg.vecReset (hP.cpu { s.cpu with i := true } hlatches)
  exact hP.clock 0 (hP.cpu _ (hP.load (s.cfg.vecReset + 1) hvector))

theorem of_takeNmi (hP : StepInvariant P) (hs : P s) : P (takeNmi s) :=
  hP.of_effects (enterThroughVector_effects _ _ _) (hP.latches { s.req with nmiPending := false } rfl hs)

theorem of_takeIrq (hP : StepInvariant P) (hs : P s) : P (takeIrq s) :=
  hP.of_effects (enterThroughVector_effects _ _ _) hs

theorem of_waitStep (hP : StepInvariant P) (hs : P s) : P (waitStep s) := by
  have hleave : P (leaveWait s) := hP.latches _ rfl hs
  unfold waitStep
  split
  · exact hP.of_takeNmi hleave
  · split
    · exact hP.of_takeIrq hleave
    · exact hP.clock _ hs

/-- The six arms of the boundary (60_exceptions R400). -/
theorem of_cpuStep (hP : StepInvariant P) (h : cpuStep s = .next t) (hs : P s) : P t := by
  unfold cpuStep at h
  split at h
  · obtain rfl := Host.Outcome.next.inj h; exact hP.of_takeReset hs
  · obtain rfl := Host.Outcome.next.inj h; exact hs
  · obtain rfl := Host.Outcome.next.inj h; exact hP.of_waitStep hs
  · obtain rfl := Host.Outcome.next.inj h; exact hP.of_takeNmi hs
  · obtain rfl := Host.Outcome.next.inj h; exact hP.of_takeIrq hs
  · exact hP.of_exec h (hP.of_effects (fetchInstr_effects s) hs)

theorem of_ticks (hP : StepInvariant P) (n : Nat) (hs : P s) : P (ticks n s) := by
  induction n generalizing s with
  | zero => exact hs
  | succ n ih => exact ih (hP.tick hs)

theorem of_step (hP : StepInvariant P) (h : step s = .next t) (hs : P s) : P t := by
  unfold step at h
  split at h
  · next u hu =>
    obtain rfl := Host.Outcome.next.inj h
    exact hP.of_ticks _ (hP.of_cpuStep hu hs)
  · cases h
  · cases h

end StepInvariant

/-- A good state stays good: the VIA operations keep the invariants, stores the canonical form. -/
theorem good_stepInvariant : StepInvariant Good where
  cpu _ h := h
  clock _ h := h
  latches _ hirq h := by
    obtain ⟨⟨hline, hpending, hbounds⟩, hmem⟩ := h
    exact ⟨⟨hline, hirq.trans hpending, hbounds⟩, hmem⟩
  load a h := by
    obtain ⟨hvia, hmem⟩ := h
    exact ⟨load8_invariant a hvia, by rw [(load8_viaOnly a _).mem]; exact hmem⟩
  store a v h := by
    obtain ⟨hvia, hmem⟩ := h
    exact ⟨store8_invariant a v hvia, store8_memory_wf a v hmem⟩
  tick h := by
    obtain ⟨hvia, hmem⟩ := h
    exact ⟨tick_invariant hvia, by rw [(tick_viaOnly _).mem]; exact hmem⟩

/-- Settles O15: `Good` is kept by all that a step is made of. -/
theorem stepKeepsGood : Obligations.StepKeepsGood := fun _ _ hs h => good_stepInvariant.of_step h hs

-- Bytes outside RAM.

/-- A store at an address that is not RAM leaves the byte list (10_state R31, 20_memory R73). -/
theorem store8_mem_of_not_ram {s : State} {a : Word} (h : owner s a ≠ .ram) (v : Byte) :
    (store8 a v s).mem = s.mem := by
  unfold store8
  split
  · next hram => exact absurd hram h
  · exact (viaWrite_viaOnly _ v s).mem
  · rfl
  · rfl

/-- A store keeps the byte of every address that is not RAM: it is at another address, or dropped there. -/
theorem readByte_store8_of_not_ram {s : State} {b : Word} (h : owner s b ≠ .ram) (a : Word) (v : Byte) :
    readByte (store8 a v s).mem b.toNat = readByte s.mem b.toNat := by
  by_cases hb : b = a
  · subst hb
    rw [store8_mem_of_not_ram h]
  · refine (store8_frame a v s).mem _ fun a' ha' => ?_
    obtain rfl := List.mem_singleton.mp ha'
    exact BitVec.toNat_ne_iff_ne.mpr hb

/-- The parameters, and so the owner of an address, and the byte there, as they were in `s`. -/
def SameByteAt (s : State) (b : Word) (t : State) : Prop :=
  t.cfg = s.cfg ∧ readByte t.mem b.toNat = readByte s.mem b.toNat

theorem ViaOnly.sameByteAt {s t u : State} {b : Word} (h : SameByteAt s b t) (hu : ViaOnly t u) :
    SameByteAt s b u := ⟨hu.cfg.trans h.1, by rw [hu.mem]; exact h.2⟩

theorem sameByteAt_stepInvariant {s : State} {b : Word} (hb : owner s b ≠ .ram) :
    StepInvariant (SameByteAt s b) where
  cpu _ h := h
  clock _ h := h
  latches _ _ h := h
  load a h := (load8_viaOnly a _).sameByteAt h
  store {t} a v h := by
    obtain ⟨hcfg, hbyte⟩ := h
    have hb' : owner t b ≠ .ram := by rw [owner, hcfg]; exact hb
    exact ⟨(store8_frame a v t).cfg.trans hcfg, (readByte_store8_of_not_ram hb' a v).trans hbyte⟩
  tick h := (tick_viaOnly _).sameByteAt h

/-- Settles O19: the byte at an address that is not RAM is kept by all that a step is made of. -/
theorem onlyRamChanges : Obligations.OnlyRamChanges := fun _ _ _ h ha =>
  ((sameByteAt_stepInvariant ha).of_step h ⟨rfl, rfl⟩).2

end Sys2Proof.Machine
end

section
/-! PROOF. The instruction statements of the family: the latches and the register frame. -/

namespace Sys2Proof.Machine

theorem CpuEffects.cfg {ds : List CpuField} {s t : State} (h : CpuEffects ds s t) : t.cfg = s.cfg := by
  induction h with
  | refl => rfl
  | cpu k _ _ ih => exact ih
  | cost n _ ih => exact ih
  | load a _ ih => exact (load8_viaOnly a _).cfg.trans ih
  | store a v _ ih => exact (store8_frame a v _).cfg.trans ih

/-- No access, cost or register write changes a latch other than `irqPending`. -/
theorem CpuEffects.req {ds : List CpuField} {s t : State} (h : CpuEffects ds s t) :
    t.req = { s.req with irqPending := t.req.irqPending } := by
  induction h with
  | refl => rfl
  | cpu k _ _ ih => exact ih
  | cost n _ ih => exact ih
  | load a _ ih => rw [(load8_viaOnly a _).req, ih]
  | store a v _ ih => rw [(store8_frame a v _).req, ih]

/-- A store at an address the VIA does not own reaches no latch and no VIA register. -/
theorem store8_of_not_via {s : State} {a : Word} (h : owner s a ≠ .via) (v : Byte) :
    (store8 a v s).req = s.req ∧ (store8 a v s).via = s.via := by
  unfold store8
  split
  · exact ⟨rfl, rfl⟩
  · next hvia => exact absurd hvia h
  · exact ⟨rfl, rfl⟩
  · exact ⟨rfl, rfl⟩

/-- Where the VIA owns no address, the VIA and the latches stay (10_state R44). -/
theorem CpuEffects.via_unchanged {ds : List CpuField} {s t : State} (h : CpuEffects ds s t)
    (hs : ∀ a, owner s a ≠ .via) : t.req = s.req ∧ t.via = s.via := by
  induction h with
  | refl => exact ⟨rfl, rfl⟩
  | cpu k _ _ ih => exact ih
  | cost n _ ih => exact ih
  | @load t a ht ih =>
    have ha : owner t a ≠ .via := by rw [owner, ht.cfg]; exact hs a
    rw [load8_plain ha]
    exact ih
  | @store t a v ht ih =>
    have ha : owner t a ≠ .via := by rw [owner, ht.cfg]; exact hs a
    obtain ⟨hreq, hvia⟩ := store8_of_not_via ha v
    obtain ⟨hreq', hvia'⟩ := ih
    exact ⟨hreq.trans hreq', hvia.trans hvia'⟩

/-- The fields outside `ds` are those of the start: loads and stores keep the CPU record. -/
theorem CpuEffects.keepsOutside {ds : List CpuField} {s t : State} (h : CpuEffects ds s t) :
    KeepsOutside ds s.cpu t.cpu := by
  induction h with
  | refl => exact .refl ds _
  | cpu k hk _ ih => exact ih.trans hk
  | cost n _ ih => exact ih
  | load a _ ih => rw [(load8_viaOnly a _).cpu]; exact ih
  | store a v _ ih => rw [(store8_frame a v _).cpu]; exact ih

/-- WAI sets its latch and is charged; nothing else changes (44_system R260). -/
theorem exec_wai (s : State) :
    exec .wai s =
      .next (chargeOpcode (Instr.opcode .wai) { s with req := { s.req with waitActive := true } }) := rfl

/-- Settles O17: an instruction but WAI is accesses, costs and register writes, which reach `irqPending` and the
VIA through VIA addresses only. -/
theorem onlyWaiWritesALatch : Obligations.OnlyWaiWritesALatch := by
  intro i s t h
  by_cases hi : i = .wai
  · subst hi
    obtain rfl := Host.Outcome.next.inj ((exec_wai s).symm.trans h)
    exact ⟨rfl, rfl, rfl, rfl, fun _ => ⟨rfl, rfl⟩⟩
  · obtain ⟨u, hu, heff⟩ := exec_effects i s hi
    obtain rfl := Host.Outcome.next.inj (hu.symm.trans h)
    have hreq := heff.req
    rw [if_neg hi]
    refine ⟨(congrArg Requests.resetPending hreq :), (congrArg Requests.nmiPending hreq :),
      (congrArg Requests.haltActive hreq :), (congrArg Requests.waitActive hreq :), fun hnovia => ?_⟩
    obtain ⟨hreq', hvia⟩ := heff.via_unchanged hnovia
    exact ⟨congrArg Requests.irqPending hreq', hvia⟩

/-- Settles O20: the register writes of an instruction are in the fields its rule names. -/
theorem registerFrame : Obligations.RegisterFrame := by
  intro i s t h
  by_cases hi : i = .wai
  · subst hi
    obtain rfl := Host.Outcome.next.inj ((exec_wai s).symm.trans h)
    exact fun _ _ => rfl
  · obtain ⟨u, hu, heff⟩ := exec_effects i s hi
    obtain rfl := Host.Outcome.next.inj (hu.symm.trans h)
    exact heff.keepsOutside

end Sys2Proof.Machine
end

section
/-! PROOF. Reset and the environment: the statements about the Reset event, the reset state, the environment's
calls and timelines, and the condition-code byte. -/

namespace Sys2Proof.Machine

-- The environment.

theorem setCA1_invariant (new : Bool) {s : State} (h : ViaInvariant s) : ViaInvariant (setCA1 new s) := by
  have hin : ViaInvariant (mapVia (fun v => { v with ca1In := new }) s) :=
    mapVia_watched_invariant rfl h
  unfold setCA1
  dsimp only
  split
  · refine mapVia_watched_invariant ?_ (setFlag_invariant .ca1 (mapVia_watched_invariant ?_ hin))
    · split <;> rfl
    · split <;> rfl
  · exact hin

theorem setCA2_invariant (new : Bool) {s : State} (h : ViaInvariant s) : ViaInvariant (setCA2 new s) := by
  have hin : ViaInvariant (mapVia (fun v => { v with ca2In := new }) s) :=
    mapVia_watched_invariant rfl h
  unfold setCA2
  dsimp only
  split
  · exact setFlag_invariant .ca2 hin
  · exact hin

/-- The edge of CB1 and then, in the modes that CB1 clocks, one phase of the shift register (R331, R353). -/
theorem setCB1_invariant (new : Bool) {s : State} (h : ViaInvariant s) : ViaInvariant (setCB1 new s) := by
  have hin : ViaInvariant (mapVia (fun v => { v with cb1In := new }) s) :=
    mapVia_watched_invariant rfl h
  have clocked (c : Bool) {t : State} (ht : ViaInvariant t) : ViaInvariant (if c then srStep t else t) := by
    cases c
    case false => exact ht
    case true => exact srStep_invariant ht
  refine clocked _ ?_
  dsimp only
  split
  · refine mapVia_watched_invariant ?_ (setFlag_invariant .cb1 (mapVia_watched_invariant ?_ hin))
    · split <;> rfl
    · split <;> rfl
  · exact hin

theorem setCB2_invariant (new : Bool) {s : State} (h : ViaInvariant s) : ViaInvariant (setCB2 new s) := by
  have hin : ViaInvariant (mapVia (fun v => { v with cb2In := new }) s) :=
    mapVia_watched_invariant rfl h
  unfold setCB2
  dsimp only
  split
  · exact setFlag_invariant .cb2 hin
  · exact hin

/-- `via.reset()` halts the shift register at 0 transfers and recomputes the line. -/
theorem viaReset_invariant {s : State} (h : ViaInvariant s) : ViaInvariant (viaReset s) :=
  updateIrq_mapVia_invariant h rfl (Nat.zero_le 8) fun hactive => absurd hactive Bool.false_ne_true

theorem envStep_invariant (e : EnvCall) {s : State} (h : ViaInvariant s) : ViaInvariant (envStep e s) := by
  cases e
  case resetEvent => exact viaReset_invariant (s := requestReset s) h
  case setPA level => exact mapVia_watched_invariant rfl h
  case setPB level => exact mapVia_watched_invariant rfl h
  case setCA1 level => exact setCA1_invariant level h
  case setCA2 level => exact setCA2_invariant level h
  case setCB1 level => exact setCB1_invariant level h
  case setCB2 level => exact setCB2_invariant level h
  all_goals exact h

theorem setCA1_viaOnly (new : Bool) (s : State) : ViaOnly s (setCA1 new s) := by
  unfold setCA1
  dsimp only
  split
  · exact ((mapVia_viaOnly _ s).trans ((mapVia_viaOnly _ _).trans (setFlag_viaOnly _ _))).trans
      (mapVia_viaOnly _ _)
  · exact mapVia_viaOnly _ s

theorem setCA2_viaOnly (new : Bool) (s : State) : ViaOnly s (setCA2 new s) := by
  unfold setCA2
  dsimp only
  split
  · exact (mapVia_viaOnly _ s).trans (setFlag_viaOnly _ _)
  · exact mapVia_viaOnly _ s

theorem setCB1_viaOnly (new : Bool) (s : State) : ViaOnly s (setCB1 new s) := by
  have clocked (c : Bool) {t : State} (ht : ViaOnly s t) : ViaOnly s (if c then srStep t else t) := by
    cases c
    case false => exact ht
    case true => exact ht.trans (srStep_viaOnly t)
  refine clocked _ ?_
  dsimp only
  split
  · exact ((mapVia_viaOnly _ s).trans ((mapVia_viaOnly _ _).trans (setFlag_viaOnly _ _))).trans
      (mapVia_viaOnly _ _)
  · exact mapVia_viaOnly _ s

theorem setCB2_viaOnly (new : Bool) (s : State) : ViaOnly s (setCB2 new s) := by
  unfold setCB2
  dsimp only
  split
  · exact (mapVia_viaOnly _ s).trans (setFlag_viaOnly _ _)
  · exact mapVia_viaOnly _ s

theorem viaReset_viaOnly (s : State) : ViaOnly s (viaReset s) := (mapVia_viaOnly _ s).trans (updateIrq_viaOnly _)

/-- No call of the environment touches memory. -/
theorem envStep_mem (e : EnvCall) (s : State) : (envStep e s).mem = s.mem := by
  cases e
  case resetEvent => exact (viaReset_viaOnly (requestReset s)).mem
  case setCA1 level => exact (setCA1_viaOnly level s).mem
  case setCA2 level => exact (setCA2_viaOnly level s).mem
  case setCB1 level => exact (setCB1_viaOnly level s).mem
  case setCB2 level => exact (setCB2_viaOnly level s).mem
  all_goals rfl

theorem envStep_good (e : EnvCall) {s : State} (h : Good s) : Good (envStep e s) := by
  obtain ⟨hvia, hmem⟩ := h
  exact ⟨envStep_invariant e hvia, by rw [envStep_mem]; exact hmem⟩

theorem timeline_good (es : List MachineEvent) {s t : State} (hs : Good s) (h : timeline es s = .next t) :
    Good t := by
  induction es generalizing s with
  | nil => obtain rfl := Host.Outcome.next.inj h; exact hs
  | cons e rest ih =>
    cases e with
    | env e => exact ih (envStep_good e hs) h
    | cpu =>
      unfold timeline at h
      split at h
      · next u hu => exact ih (good_stepInvariant.of_step hu hs) h
      · cases h
      · cases h

/-- Settles O16, by induction on the timeline. -/
theorem environmentKeepsGood : Obligations.EnvironmentKeepsGood :=
  ⟨fun e _ => envStep_good e, fun es _ _ => timeline_good es⟩

-- Reset.

/-- Settles O14: at reset no flag is up, the line is low, the shift register is halted and no byte is listed. -/
theorem resetIsGood : Obligations.ResetIsGood :=
  ⟨⟨by decide, rfl, Nat.zero_le 8, fun hactive => absurd hactive Bool.false_ne_true⟩, rfl⟩

/-- Recomputing the line in full, where `irqPending` is its level (10_state R44, R46(b)). -/
theorem updateIrq_eq {s : State} (h : s.req.irqPending = s.via.irqLine) :
    updateIrq s =
      { s with
        via := { s.via with irqLine := s.via.composite }
        req := { s.req with irqPending := s.via.composite } } := by
  have hpending : (updateIrq s).req.irqPending = s.via.composite := by
    rw [updateIrq_pending h, updateIrq_via]
  have hframe : ViaOnly s (updateIrq s) := updateIrq_viaOnly s
  rw [ViaOnly, hpending, updateIrq_via] at hframe
  exact hframe

theorem muxBits_zero (x y : Byte) : muxBits 0 x y = y := by
  change (0#8 &&& x) ||| (~~~0#8 &&& y) = y
  rw [BitVec.zero_and, BitVec.not_zero, BitVec.allOnes_and, BitVec.zero_or]

/-- With DDRB and ACR 0, no port B pin is driven (10_state R35). -/
theorem pbPin_of_inputs {v : Via} (hacr : v.acr = 0) (hddrb : v.ddrb = 0) : v.pbPin = v.pbIn := by
  have hout : v.outputB = 0 := by rw [Via.outputB, hacr, hddrb]; rfl
  rw [Via.pbPin, hout, muxBits_zero]

/-- `via.reset()` at the record: the registers of 10_state R45, with `PB6_prev` the level of the input pin. -/
theorem viaResetRegs_pb6Prev (v : Via) : (viaResetRegs v).pb6Prev = v.pbIn.getLsbD 6 :=
  congrArg (BitVec.getLsbD · 6) (pbPin_of_inputs rfl rfl)

theorem viaResetRegs_composite (v : Via) : (viaResetRegs v).composite = false :=
  (by decide : ((0 : BitVec 7) &&& 0 != 0) = false)

/-- A taken reset of a vector outside the VIA (60_exceptions R401). -/
theorem takeReset_plain {s : State} (h : owner s s.cfg.vecReset ≠ .via)
    (h' : owner s (s.cfg.vecReset + 1) ≠ .via) :
    takeReset s =
      { s with
        cpu := { s.cpu with i := true, pc := plainWord s s.cfg.vecReset }
        req := { s.req with resetPending := false, waitActive := false, nmiPending := false }
        clock := 0 } := by
  have hload := load16_plain (a := s.cfg.vecReset)
    (s := { s with
      cpu := { s.cpu with i := true }
      req := { s.req with resetPending := false, waitActive := false, nmiPending := false } }) h h'
  exact congrArg
    (fun w : Word × State => { w.2 with cpu := { w.2.cpu with pc := w.1 }, clock := 0 }) hload

/-- A step that takes a reset owes no tick: its clock is 0 (70_reset_and_hazards R452). -/
theorem step_of_resetPending {s : State} (h : s.req.resetPending = true) : step s = .next (takeReset s) := by
  have harm : boundaryArm s = .reset := by rw [boundaryArm, if_pos h]
  have hclock : (takeReset s).clock - s.clock = 0 := Nat.zero_sub _
  simp only [step, cpuStep, harm, afterTicks, hclock, ticks]

/-- The Reset event, where `irqPending` is the level of the line: the request is latched, the VIA reset, the line
low (70_reset_and_hazards R450, 10_state R45). -/
theorem envStep_resetEvent {s : State} (h : s.req.irqPending = s.via.irqLine) :
    envStep .resetEvent s =
      { s with
        via := { viaResetRegs s.via with irqLine := false }
        req := { s.req with resetPending := true, irqPending := false } } := by
  have hline := updateIrq_eq (s := mapVia viaResetRegs (requestReset s)) h
  rw [mapVia_via, requestReset_via, viaResetRegs_composite] at hline
  exact hline

/-- Settles O13: the event resets the VIA and lowers the line, and the step takes the latched reset. -/
theorem resetEventLeavesTheResetState : Obligations.ResetEventLeavesTheResetState := by
  intro s hpending hvec hvec'
  rw [envStep_resetEvent hpending, step_of_resetPending rfl, ← viaResetRegs_pb6Prev s.via]
  exact congrArg Host.Outcome.next (takeReset_plain hvec hvec')

-- The condition-code byte.

/-- The bits of a byte built from its bits. -/
theorem byteOfBits_getLsbD : ∀ b7 b6 b5 b4 b3 b2 b1 b0 : Bool,
    let r := byteOfBits b7 b6 b5 b4 b3 b2 b1 b0
    r.getLsbD 7 = b7 ∧ r.getLsbD 6 = b6 ∧ r.getLsbD 5 = b5 ∧ r.getLsbD 4 = b4 ∧
      r.getLsbD 3 = b3 ∧ r.getLsbD 2 = b2 ∧ r.getLsbD 1 = b1 ∧ r.getLsbD 0 = b0 := by decide

/-- The byte with its upper two bits set and the others those of `v`. -/
theorem byteOfBits_flags : ∀ v : Byte,
    byteOfBits true true (v.getLsbD 5) (v.getLsbD 4) (v.getLsbD 3) (v.getLsbD 2) (v.getLsbD 1) (v.getLsbD 0) =
      v ||| 0xC0 := by decide

/-- Settles O26: each flag is its bit of the byte, so writing back what was read restores the flags. -/
theorem conditionCodeByte : Obligations.ConditionCodeByte := by
  intro k v
  have hbits := byteOfBits_getLsbD true true k.h k.i k.n k.z k.v k.c
  refine ⟨hbits, byteOfBits_flags v, ?_, rfl⟩
  obtain ⟨-, -, hh, hi, hn, hz, hv, hc⟩ := hbits
  simp only [Cpu.setCcr, Cpu.ccr, hh, hi, hn, hz, hv, hc]

end Sys2Proof.Machine
end

section
/-! PROOF. The memory statements: what an access does by the owner of its address, which accesses
have side effects, the two bytes of a word, and the construction of the map (20_memory R72 to R87). -/

namespace Sys2Proof.Machine

-- Byte accesses by the owner of the address.

theorem load8_memory {s : State} {a : Word} (h : owner s a = .ram ∨ owner s a = .rom) :
    load8 a s = (readByte s.mem a.toNat, s) := by
  unfold load8
  rcases h with h | h <;> rw [h]

theorem load8_stub {s : State} {a : Word} (h : owner s a = .stub) : load8 a s = (stubByte s.cfg a, s) := by
  unfold load8
  rw [h]

/-- A store does not move an address to another device: the map is configuration (10_state R30). -/
theorem owner_store8 (s : State) (a b : Word) (v : Byte) : owner (store8 a v s) b = owner s b := by
  rw [owner, (store8_frame a v s).cfg, owner]

theorem readByte_store8_ne (s : State) {a : Word} {b : Nat} (h : b ≠ a.toNat) (v : Byte) :
    readByte (store8 a v s).mem b = readByte s.mem b :=
  (store8_frame a v s).mem b fun a' ha' => by rwa [List.mem_singleton.mp ha']

theorem readByte_store8_self {s : State} {a : Word} (h : owner s a = .ram) (hmem : Memory.wf s.mem = true)
    (v : Byte) : readByte (store8 a v s).mem a.toNat = v := by
  rw [store8_ram h, readByte_writeByte hmem, if_pos rfl]

/-- The register of an address is fixed by its low four bits (46_via_registers R300). -/
theorem viaRegOf_congr {a b : Word} (h : b.toNat % 16 = a.toNat % 16) : viaRegOf b = viaRegOf a := by
  simp only [viaRegOf, h]

/-- Settles O21, one clause for each device kind. -/
theorem byteAccessesByOwner : Obligations.ByteAccessesByOwner := by
  intro s a v
  refine ⟨fun hram => ⟨load8_memory (.inl hram), fun hmem => ?_, fun b hb => readByte_store8_ne s hb v, ?_⟩,
    fun hrom => ⟨load8_memory (.inr hrom), store8_dropped (.inl hrom) v⟩,
    fun hstub => ⟨load8_stub hstub, store8_dropped (.inr hstub) v⟩,
    fun hvia b hreg hvia' => ?_⟩
  · rw [load8_memory (.inl ((owner_store8 s a a v).trans hram)), readByte_store8_self hram hmem]
  · rw [store8_ram hram]
  · rw [load8_via hvia, load8_via hvia', store8_via hvia, store8_via hvia', viaRegOf_congr hreg]
    exact ⟨rfl, rfl⟩

-- Side effects of an access.

/-- The registers whose read has a side effect (46_via_registers R303, R305, R309, R316, R320). -/
def sideEffectRegs : List ViaReg := [.orb, .ora, .t1cl, .t2cl, .sr]

theorem viaReadEffect_quiet {reg : ViaReg} (h : reg ∉ sideEffectRegs) (s : State) :
    viaReadEffect reg s = s := by
  cases reg
  case orb | ora | t1cl | t2cl | sr => exact absurd (by decide) h
  all_goals rfl

/-- Those registers by their numbers (46_via_registers R301). -/
theorem mod_sixteen_of_mem_sideEffectRegs {a : Word} (h : viaRegOf a ∈ sideEffectRegs) :
    a.toNat % 16 ∈ [0, 1, 4, 8, 10] := by
  unfold viaRegOf at h
  split at h <;> simp_all [sideEffectRegs]

/-- Settles O24: a quiet read is one outside the VIA or of a register that has no read effect. -/
theorem sideEffectsOfAccesses : Obligations.SideEffectsOfAccesses := by
  intro s a v
  refine ⟨fun hquiet => ?_, load8_viaOnly a s, fun hdrop => store8_dropped hdrop v, fun hvia => ?_⟩
  · by_cases hvia : owner s a = .via
    · have hnumber := hquiet.resolve_left fun hne => hne hvia
      rw [load8_via hvia]
      exact viaReadEffect_quiet (fun hreg => hnumber (mod_sixteen_of_mem_sideEffectRegs hreg)) s
    · rw [load8_plain hvia]
  · rw [store8_via hvia]
    exact viaWrite_viaOnly _ v s

-- Words.

theorem joinBytes_toNat (h l : Byte) : (joinBytes h l).toNat = h.toNat * 256 + l.toNat := by
  rw [joinBytes, BitVec.toNat_append, ← Nat.shiftLeft_add_eq_or_of_lt l.isLt, Nat.shiftLeft_eq]

theorem hiByte_eq_ofNat (v : Word) : hiByte v = BitVec.ofNat 8 (v.toNat / 256) := by
  rw [hiByte, BitVec.extractLsb', Nat.shiftRight_eq_div_pow]

theorem loByte_eq_ofNat (v : Word) : loByte v = BitVec.ofNat 8 (v.toNat % 256) :=
  BitVec.eq_of_toNat_eq (by simp [loByte])

theorem joinBytes_hiByte_loByte (v : Word) : joinBytes (hiByte v) (loByte v) = v := by
  refine BitVec.eq_of_toNat_eq ?_
  rw [joinBytes_toNat, hiByte_eq_ofNat, loByte_eq_ofNat, BitVec.toNat_ofNat, BitVec.toNat_ofNat]
  omega

/-- The next address is another one, also from 0xFFFF to 0x0000. -/
theorem toNat_ne_toNat_add_one (a : Word) : a.toNat ≠ (a + 1).toNat := by bv_omega

/-- A word stored in RAM lies in its two bytes, the high one first (20_memory R75, R84). -/
theorem readByte_store16 {s : State} {a : Word} (h : owner s a = .ram) (h' : owner s (a + 1) = .ram)
    (hmem : Memory.wf s.mem = true) (v : Word) :
    readByte (store16 a v s).mem a.toNat = hiByte v ∧
      readByte (store16 a v s).mem (a + 1).toNat = loByte v := by
  have hhigh : Memory.wf (store8 a (hiByte v) s).mem = true := store8_memory_wf a _ hmem
  have howner : owner (store8 a (hiByte v) s) (a + 1) = .ram := (owner_store8 s a _ _).trans h'
  constructor
  · rw [store16, readByte_store8_ne _ (toNat_ne_toNat_add_one a), readByte_store8_self h hmem]
  · rw [store16, readByte_store8_self howner hhigh]

theorem load16_memory {s : State} {a : Word} (h : owner s a = .ram) (h' : owner s (a + 1) = .ram) :
    load16 a s = (joinBytes (readByte s.mem a.toNat) (readByte s.mem (a + 1).toNat), s) := by
  simp only [load16, load8_memory (.inl h), load8_memory (.inl h')]

theorem owner_store16 (s : State) (a b v : Word) : owner (store16 a v s) b = owner s b :=
  (owner_store8 _ _ b _).trans (owner_store8 s a b _)

/-- Settles O22: the halves of a word by number, and the two stores read back. -/
theorem wordAccesses : Obligations.WordAccesses := by
  intro s a v
  refine ⟨⟨joinBytes_toNat _ _, rfl⟩, ?_, fun h h' hmem => ?_⟩
  · rw [store16, hiByte_eq_ofNat, loByte_eq_ofNat]
  · obtain ⟨hhi, hlo⟩ := readByte_store16 h h' hmem v
    have hnext : (a + 1).toNat = (a.toNat + 1) % 65536 := BitVec.toNat_add a 1
    refine ⟨?_, hhi.trans (hiByte_eq_ofNat v), ?_⟩
    · rw [load16_memory ((owner_store16 s a a v).trans h) ((owner_store16 s a _ v).trans h'), hhi, hlo,
        joinBytes_hiByte_loByte]
    · rw [← hnext, hlo, loByte_eq_ofNat]

-- The map.

theorem registerDevice_wellFormed {r : Region} (h : r.first ≤ r.last ∧ r.last ≤ 0xFFFF) (m : AddressMap) :
    registerDevice r m = .ok (r :: m) := if_pos h

theorem registerDevice_malformed {r : Region} (h : r.last < r.first ∨ 0xFFFF < r.last) (m : AddressMap) :
    registerDevice r m = .error .malformedRegion := if_neg (by omega)

theorem registerAll_cons_ok {r : Region} {m m' : AddressMap} (h : registerDevice r m = .ok m')
    (rs : List Region) : registerAll (r :: rs) m = registerAll rs m' := by
  rw [registerAll, h]

theorem registerAll_cons_error {r : Region} {m : AddressMap} {e : ConfigurationError}
    (h : registerDevice r m = .error e) (rs : List Region) : registerAll (r :: rs) m = .error e := by
  rw [registerAll, h]

/-- Each registration goes in front of the map (20_memory R79). -/
theorem registerAll_wellFormed {rs : List Region} (h : ∀ r ∈ rs, r.first ≤ r.last ∧ r.last ≤ 0xFFFF)
    (m : AddressMap) : registerAll rs m = .ok (rs.reverse ++ m) := by
  induction rs generalizing m with
  | nil => rfl
  | cons r rs ih =>
    obtain ⟨hr, hrs⟩ := List.forall_mem_cons.mp h
    rw [registerAll_cons_ok (registerDevice_wellFormed hr m), ih hrs, List.reverse_cons, List.append_assoc,
      List.singleton_append]

/-- Registration stops at the first malformed device; the devices before it are registered. -/
theorem registerAll_malformed {rs : List Region} (h : ∃ r ∈ rs, r.last < r.first ∨ 0xFFFF < r.last)
    (m : AddressMap) : registerAll rs m = .error .malformedRegion := by
  induction rs generalizing m with
  | nil => simp at h
  | cons r rs ih =>
    by_cases hr : r.last < r.first ∨ 0xFFFF < r.last
    · exact registerAll_cons_error (registerDevice_malformed hr m) rs
    · have hrest := ((List.exists_mem_cons_iff _ r rs).mp h).resolve_left hr
      rw [registerAll_cons_ok (registerDevice_wellFormed (by omega) m), ih hrest]

/-- The owner is the first region of the map that holds the address, or the stub (20_memory R80). -/
theorem ownerIn_eq_find (m : AddressMap) (a : Nat) :
    ownerIn m a = ((m.find? fun r => decide (r.first ≤ a ∧ a ≤ r.last)).map Region.kind).getD .stub := by
  induction m with
  | nil => rfl
  | cons r rest ih =>
    rw [ownerIn, regionHolds, ← Bool.decide_and, ih, List.find?_cons]
    cases decide (r.first ≤ a ∧ a ≤ r.last) <;> rfl

/-- Settles O23, by induction on the list of devices: an accepted list is the map in reverse. -/
theorem mapOwnership : Obligations.MapOwnership := by
  refine ⟨fun _ => rfl, fun rs =>
    ⟨fun hwf => ⟨rs.reverse, ?_, ownerIn_eq_find rs.reverse⟩, registerAll_malformed⟩⟩
  rw [registerAll_wellFormed hwf, List.append_nil]

end Sys2Proof.Machine
end

section
/-! PROOF. The bytes an instruction leaves alone (20_memory R87): the relation `KeepsBytes` along the shared
operations, then the instructions by the shapes of their meanings. -/

namespace Sys2Proof.Machine

/-- `t` has the bytes of `s` at every address outside `as`. -/
def KeepsBytes (as : List Word) (s t : State) : Prop :=
  ∀ b : Nat, (∀ a ∈ as, b ≠ a.toNat) → readByte t.mem b = readByte s.mem b

namespace KeepsBytes

variable {as : List Word} {s t : State}

theorem of_mem_eq (h : t.mem = s.mem) : KeepsBytes as s t := fun b _ => by rw [h]

theorem load8 (a : Word) (h : KeepsBytes as s t) : KeepsBytes as s (load8 a t).2 := by
  intro b hb
  rw [(load8_viaOnly a t).mem, h b hb]

theorem store8 {a : Word} (ha : a ∈ as) (v : Byte) (h : KeepsBytes as s t) : KeepsBytes as s (store8 a v t) :=
  fun b hb => (readByte_store8_ne t (hb a ha) v).trans (h b hb)

theorem push8 (hsp : t.cpu.sp ∈ as) (v : Byte) (h : KeepsBytes as s t) : KeepsBytes as s (push8 v t) :=
  h.store8 hsp v

theorem push16 (hsp : t.cpu.sp ∈ as) (hsp' : t.cpu.sp - 1 ∈ as) (v : Word) (h : KeepsBytes as s t) :
    KeepsBytes as s (push16 v t) :=
  (h.push8 hsp _).push8 (by rwa [push8_cpu]) _

end KeepsBytes

section Shapes

variable (s : State)

theorem withOperand8_mem (m : Operand8) (f : Byte → Cpu → Cpu) : (withOperand8 m f s).mem = s.mem :=
  (readOperand8_viaOnly m s).mem

theorem withOperand16_mem (m : Operand16) (f : Word → Cpu → Cpu) : (withOperand16 m f s).mem = s.mem :=
  (readOperand16_viaOnly m s).mem

theorem testByte_mem (ea : Word) (f : Byte → Cpu → Cpu) : (testByte ea f s).mem = s.mem :=
  (load8_viaOnly ea s).mem

theorem branchIf_mem (cond : Bool) (rel : Byte) : (branchIf cond rel s).mem = s.mem := by
  cases cond <;> rfl

theorem pull8_mem : (pull8 s).2.mem = s.mem := (pull8_viaOnly s).mem

theorem pull16_mem : (pull16 s).2.mem = s.mem := (pull8_mem (pull8 s).2).trans (pull8_mem s)

/-- A read-modify-write stores at its own effective address. -/
theorem modifyByte_keepsBytes (ea : Word) (f : Byte → Cpu → Byte × Cpu) :
    KeepsBytes [ea] s (modifyByte ea f s) :=
  (KeepsBytes.load8 ea (.of_mem_eq rfl)).store8 (List.mem_singleton_self ea) _

/-- A call pushes its return address (43_branch_jump R238, R239). -/
theorem callTo_keepsBytes (target : Word) : KeepsBytes [s.cpu.sp, s.cpu.sp - 1] s (callTo target s) :=
  KeepsBytes.push16 (t := s) (by simp) (by simp) _ (.of_mem_eq rfl)

/-- The frame of an interrupt takes the seven bytes from SP down (60_exceptions R404). -/
theorem pushAll_keepsBytes : KeepsBytes (storedAddresses .swi s) s (pushAll s) := by
  have hpc : KeepsBytes (storedAddresses .swi s) s (push16 s.cpu.pc s) :=
    .push16 (by simp [storedAddresses]) (by simp [storedAddresses]) _ (.of_mem_eq rfl)
  have hix := hpc.push16 (by simp [storedAddresses, push16_cpu, sub_sub])
    (by simp [storedAddresses, push16_cpu, sub_sub]) s.cpu.ix
  have ha := hix.push8 (by simp [storedAddresses, push16_cpu, sub_sub]) s.cpu.a
  have hb := ha.push8 (by simp [storedAddresses, push8_cpu, push16_cpu, sub_sub]) s.cpu.b
  exact hb.push8 (by simp [storedAddresses, push8_cpu, push16_cpu, sub_sub]) s.cpu.ccr

/-- An entry writes memory by its pushes only: the read of the vector changes no byte. -/
theorem enterThroughVector_mem (vec : Word) (n : Nat) : (enterThroughVector vec n s).mem = (pushAll s).mem := by
  rw [enterThroughVector, addCost_mem, onCpu_mem, (load16_viaOnly vec _).mem, onCpu_mem]

theorem enterThroughVector_keepsBytes (vec : Word) (n : Nat) :
    KeepsBytes (storedAddresses .swi s) s (enterThroughVector vec n s) := by
  intro b hb
  rw [enterThroughVector_mem, pushAll_keepsBytes s b hb]

/-- A return from an interrupt pulls seven bytes and stores none (60_exceptions R408). -/
theorem pullAll_mem : (pullAll s).mem = s.mem := by
  simp only [pullAll, onCpu_mem, pull8_mem, pull16_mem]

end Shapes

theorem finish_keepsBytes {as : List Word} {s t : State} {op : Byte} (h : KeepsBytes as s t) :
    ∃ u, finish op t = .next u ∧ KeepsBytes as s u := ⟨_, rfl, h⟩

/-- An instruction that stores nothing answers a state with the same byte list. -/
theorem finish_keepsBytes_of_mem {as : List Word} {s t : State} {op : Byte} (h : t.mem = s.mem) :
    ∃ u, finish op t = .next u ∧ KeepsBytes as s u := finish_keepsBytes (.of_mem_eq h)

/-- Every instruction keeps the bytes outside the addresses it stores to. -/
theorem exec_keepsBytes (i : Instr) (s : State) :
    ∃ t, exec i s = .next t ∧ KeepsBytes (storedAddresses i s) s t := by
  cases i with
  | ldaa m | ldab m | adda m | addb m | adca m | adcb m | suba m | subb m | sbca m | sbcb m | cmpa m
  | cmpb m | anda m | andb m | bita m | bitb m | oraa m | orab m | eora m | eorb m =>
    exact finish_keepsBytes_of_mem (withOperand8_mem s m _)
  | ldx m | lds m | cpx m => exact finish_keepsBytes_of_mem (withOperand16_mem s m _)
  | adx m => exact finish_keepsBytes_of_mem (readAdxOperand_viaOnly m s).mem
  | tst m => exact finish_keepsBytes_of_mem (testByte_mem s _ _)
  | tmm imm off => exact finish_keepsBytes_of_mem (testByte_mem s _ _)
  | tab | tba | tap | tpa | tsx | txs | aba | sba | cba | nega | negb | inca | incb | deca | decb | clra
  | clrb | tsta | tstb | daa | inx | dex | ins | des | coma | comb | asla | aslb | asra | asrb | lsra
  | lsrb | rola | rolb | rora | rorb | clc | sec | clv | sev | cli | sei | nop | wai =>
    exact finish_keepsBytes_of_mem rfl
  | bra rel | bhi rel | bls rel | bcc rel | bcs rel | bne rel | beq rel | bvc rel | bvs rel | bpl rel
  | bmi rel | bge rel | blt rel | bgt rel | ble rel =>
    exact finish_keepsBytes_of_mem (branchIf_mem s _ rel)
  | jmp m => exact finish_keepsBytes_of_mem rfl
  | pula | pulb => exact finish_keepsBytes_of_mem (pull8_mem s)
  | rts => exact finish_keepsBytes_of_mem (pull16_mem s)
  | rti => exact finish_keepsBytes_of_mem (pullAll_mem s)
  | unrecognised op => exact ⟨_, rfl, .of_mem_eq rfl⟩
  | staa m | stab m | clr m => exact finish_keepsBytes (store8_frame _ _ s).mem
  | stx m | sts m => exact finish_keepsBytes (store16_frame _ _ s).mem
  | neg m | inc m | dec m | com m | asl m | asr m | lsr m | rol m | ror m =>
    exact finish_keepsBytes (modifyByte_keepsBytes s _ _)
  | nim imm off | oim imm off | xim imm off => exact finish_keepsBytes (modifyByte_keepsBytes s _ _)
  | psha | pshb => exact finish_keepsBytes (store8_frame _ _ s).mem
  | jsr m | bsr rel => exact finish_keepsBytes (callTo_keepsBytes s _)
  | swi => exact ⟨_, rfl, enterThroughVector_keepsBytes s _ _⟩

/-- Settles O18: the state an instruction answers is the one of `exec_keepsBytes`. -/
theorem memoryFrame : Obligations.MemoryFrame := by
  intro i s t h
  obtain ⟨u, hu, hbytes⟩ := exec_keepsBytes i s
  obtain rfl := Host.Outcome.next.inj (hu.symm.trans h)
  exact hbytes

end Sys2Proof.Machine
end

section
/-! PROOF. The decoder and the encoder are inverse (30_encoding R100 to R112): the first instruction of a byte
list as a function of its opcode byte, the opcode map row by row, and the statements about encodings. -/

namespace Sys2Proof

open Sys2Proof.Machine (joinBytes hiByte loByte joinBytes_hiByte_loByte)

-- The bytes of a word.

theorem hiByte_joinBytes (h l : Byte) : hiByte (joinBytes h l) = h := BitVec.extractLsb'_append_eq_left

theorem loByte_joinBytes (h l : Byte) : loByte (joinBytes h l) = l := BitVec.extractLsb'_append_eq_right

theorem wordBytes_joinBytes (h l : Byte) : wordBytes (joinBytes h l) = [h, l] := by
  rw [wordBytes, hiByte_joinBytes, loByte_joinBytes]

-- What an opcode byte makes of the two bytes after it.

/-- The instruction a form makes of the opcode byte and the word `w` of the two bytes after it. -/
def OpForm.fill (op : Byte) (w : Word) : OpForm → Instr
  | .none => .unrecognised op
  | .inh i => i
  | .byte f => f (hiByte w)
  | .word f => f w
  | .imx f => f (hiByte w) (loByte w)

theorem instrOf_eq_fill (memImm : Bool) (op b1 b2 : Byte) :
    instrOf memImm op b1 b2 = (opForm memImm op).fill op (joinBytes b1 b2) := by
  unfold instrOf
  cases opForm memImm op <;> simp only [OpForm.fill, hiByte_joinBytes, loByte_joinBytes]

/-- What is to be known of a cell of the opcode map: whether its instruction is well formed, and its bytes. -/
def cellReading (memImm : Bool) (w : Word) (op : Byte) : Bool × Byte × List Byte :=
  let i := (opForm memImm op).fill op w
  (i.wellFormed memImm, i.opcode, i.operandBytes)

/-- What a cell is to read as: well formed, with its own opcode byte and the operand bytes its length calls for. -/
def cellExpected (memImm : Bool) (w : Word) (op : Byte) : Bool × Byte × List Byte :=
  (true, op, (wordBytes w).take (lengthOf memImm op - 1))

/-- The sixteen opcode bytes of a row of the opcode map (30_encoding R109). -/
def rowOpcodes (r : Nat) : List Byte := (List.range 16).map fun k => BitVec.ofNat 8 (16 * r + k)

theorem mem_rowOpcodes (op : Byte) : op ∈ rowOpcodes (op.toNat / 16) := by
  refine List.mem_map.mpr ⟨op.toNat % 16, List.mem_range.mpr (by omega), ?_⟩
  rw [Nat.div_add_mod, BitVec.ofNat_toNat, BitVec.setWidth_eq]

/-- The opcode map against the "Encoding" parts of the rules, row by row: each cell by evaluation, the operand
word left as it is. -/
theorem rowOpcodes_reading (memImm : Bool) (w : Word) {r : Nat} (hr : r < 16) :
    (rowOpcodes r).map (cellReading memImm w) = (rowOpcodes r).map (cellExpected memImm w) := by
  interval_cases r <;> cases memImm <;> rfl

theorem cellReading_eq (memImm : Bool) (w : Word) (op : Byte) :
    cellReading memImm w op = cellExpected memImm w op :=
  List.map_inj_left.mp (rowOpcodes_reading memImm w (by omega)) op (mem_rowOpcodes op)

/-- Whatever follows an opcode byte, the instruction is well formed, begins with that byte, and has as many of the
following bytes as operands as the length of the opcode says (30_encoding R111, R112). -/
theorem instrOf_reading (memImm : Bool) (op b1 b2 : Byte) :
    (instrOf memImm op b1 b2).wellFormed memImm = true ∧ (instrOf memImm op b1 b2).opcode = op ∧
      (instrOf memImm op b1 b2).operandBytes = [b1, b2].take (lengthOf memImm op - 1) := by
  have hcell := cellReading_eq memImm (joinBytes b1 b2) op
  rw [cellReading, cellExpected, ← instrOf_eq_fill, wordBytes_joinBytes] at hcell
  simpa only [Prod.mk.injEq] using hcell

theorem lengthOf_cases (memImm : Bool) (op : Byte) :
    lengthOf memImm op = 1 ∨ lengthOf memImm op = 2 ∨ lengthOf memImm op = 3 := by
  unfold lengthOf
  split <;> decide

-- The first instruction of a byte list.

/-- The instruction of an opcode byte and the list of the bytes after it. -/
def instrFrom (memImm : Bool) (op : Byte) (bs : List Byte) : Instr :=
  instrOf memImm op (bs.getD 0 0) (bs.getD 1 0)

theorem instrFrom_wellFormed (memImm : Bool) (op : Byte) (bs : List Byte) :
    (instrFrom memImm op bs).wellFormed memImm = true := by
  obtain ⟨hwf, -, -⟩ := instrOf_reading memImm op (bs.getD 0 0) (bs.getD 1 0)
  exact hwf

theorem instrFrom_opcode (memImm : Bool) (op : Byte) (bs : List Byte) :
    (instrFrom memImm op bs).opcode = op := by
  obtain ⟨-, hop, -⟩ := instrOf_reading memImm op (bs.getD 0 0) (bs.getD 1 0)
  exact hop

theorem length_instrFrom_operandBytes (memImm : Bool) (op : Byte) (bs : List Byte) :
    (instrFrom memImm op bs).operandBytes.length = lengthOf memImm op - 1 := by
  have hlen := lengthOf_cases memImm op
  obtain ⟨-, -, hbytes⟩ := instrOf_reading memImm op (bs.getD 0 0) (bs.getD 1 0)
  rw [instrFrom, hbytes, List.length_take, List.length_cons, List.length_singleton]
  omega

/-- Its operand bytes are the first of the list, where the list holds enough. -/
theorem instrFrom_operandBytes {memImm : Bool} {op : Byte} {bs : List Byte}
    (h : lengthOf memImm op ≤ bs.length + 1) :
    (instrFrom memImm op bs).operandBytes = bs.take (lengthOf memImm op - 1) := by
  obtain ⟨-, -, hbytes⟩ := instrOf_reading memImm op (bs.getD 0 0) (bs.getD 1 0)
  rw [instrFrom, hbytes]
  rcases lengthOf_cases memImm op with hlen | hlen | hlen <;> rw [hlen] at h ⊢
  · rfl
  · obtain _ | ⟨b1, bs⟩ := bs
    · simp at h
    · rfl
  · obtain _ | ⟨b1, _ | ⟨b2, bs⟩⟩ := bs
    · simp at h
    · simp at h
    · rfl

/-- Decoding where the list holds the operand bytes the opcode calls for. -/
theorem decode_cons {memImm : Bool} {op : Byte} {bs : List Byte} (h : lengthOf memImm op ≤ bs.length + 1) :
    decode memImm (op :: bs) = .ok (instrFrom memImm op bs, bs.drop (lengthOf memImm op - 1)) := by
  unfold decode instrFrom instrOf
  unfold lengthOf at h ⊢
  cases hform : opForm memImm op <;> simp only [hform] at h ⊢
  case none | inh => rfl
  case byte f =>
    obtain _ | ⟨b1, bs⟩ := bs
    · simp at h
    · rfl
  case word f | imx f =>
    obtain _ | ⟨b1, _ | ⟨b2, bs⟩⟩ := bs
    · simp at h
    · simp at h
    · rfl

/-- Only a list that is too short does not decode (30_encoding R111). -/
theorem decode_cons_short {memImm : Bool} {op : Byte} {bs : List Byte}
    (h : bs.length + 1 < lengthOf memImm op) : decode memImm (op :: bs) = .error (.missingOperand op) := by
  unfold decode
  unfold lengthOf at h
  cases hform : opForm memImm op <;> simp only [hform] at h ⊢
  case none | inh => omega
  case byte f =>
    obtain _ | ⟨b1, bs⟩ := bs
    · rfl
    · simp at h
  case word f | imx f =>
    obtain _ | ⟨b1, _ | ⟨b2, bs⟩⟩ := bs
    · rfl
    · rfl
    · simp only [List.length_cons] at h
      omega

/-- Settles O2: the instruction is the one of the first byte and those after it, and a list too short for
it does not decode. -/
theorem decodeThenEncode : Obligations.DecodeThenEncode := by
  intro memImm bytes rest i h
  obtain _ | ⟨op, bs⟩ := bytes
  · cases h
  · by_cases hlen : lengthOf memImm op ≤ bs.length + 1
    · rw [decode_cons hlen] at h
      cases h
      refine ⟨instrFrom_wellFormed memImm op bs, ?_⟩
      rw [encode, instrFrom_opcode, instrFrom_operandBytes hlen, List.cons_append, List.take_append_drop]
    · rw [decode_cons_short (Nat.lt_of_not_le hlen)] at h
      cases h

-- The operand bytes of an instruction make it again.

/-- The bytes of a word in front of others are the operand of a form that takes a word. -/
theorem instrFrom_wordBytes (memImm : Bool) (op : Byte) (w : Word) (rest : List Byte) :
    instrFrom memImm op (wordBytes w ++ rest) = (opForm memImm op).fill op w :=
  (instrOf_eq_fill memImm op _ _).trans (congrArg (OpForm.fill op · _) (joinBytes_hiByte_loByte w))

/-- Whether an opcode byte begins no instruction. -/
def OpForm.isNone : OpForm → Bool
  | .none => true
  | .inh _ | .byte _ | .word _ | .imx _ => false

/-- The empty cells of the opcode map are the bytes 30_encoding R110 lists, and those the switch of
93_implementation_defined U9 removes. -/
theorem unrecognised_wellFormed_eq : ∀ (memImm : Bool) (op : Byte),
    (Instr.unrecognised op).wellFormed memImm = (opForm memImm op).isNone := by decide

theorem instrFrom_unrecognised {memImm : Bool} {op : Byte}
    (h : (Instr.unrecognised op).wellFormed memImm = true) (bs : List Byte) :
    instrFrom memImm op bs = .unrecognised op := by
  rw [unrecognised_wellFormed_eq] at h
  unfold instrFrom instrOf
  cases hform : opForm memImm op
  case none => rfl
  all_goals rw [hform] at h; cases h

/-- The opcode and the operand bytes of a well-formed instruction make that instruction, whatever follows; the
cases follow the operand forms. -/
theorem instrFrom_encoded {memImm : Bool} {i : Instr} (h : i.wellFormed memImm = true) (rest : List Byte) :
    instrFrom memImm i.opcode (i.operandBytes ++ rest) = i := by
  cases i with
  | ldaa m | ldab m | adda m | addb m | adca m | adcb m | suba m | subb m | sbca m | sbcb m | cmpa m
  | cmpb m | anda m | andb m | bita m | bitb m | oraa m | orab m | eora m | eorb m =>
    cases m with
    | imm b | dir b | idx b =>
      dsimp only [Instr.opcode, Operand8.opcode]
      cases memImm <;> rfl
    | ext a =>
      refine (instrFrom_wordBytes memImm _ a rest).trans ?_
      dsimp only [Instr.opcode, Operand8.opcode]
      cases memImm <;> rfl
  | ldx m | lds m | cpx m =>
    cases m with
    | dir b | idx b =>
      dsimp only [Instr.opcode, Operand16.opcode]
      cases memImm <;> rfl
    | imm w | ext w =>
      refine (instrFrom_wordBytes memImm _ w rest).trans ?_
      dsimp only [Instr.opcode, Operand16.opcode]
      cases memImm <;> rfl
  | staa m | stab m | stx m | sts m =>
    cases m with
    | dir b | idx b =>
      dsimp only [Instr.opcode, StoreAddr.opcode]
      cases memImm <;> rfl
    | ext a =>
      refine (instrFrom_wordBytes memImm _ a rest).trans ?_
      dsimp only [Instr.opcode, StoreAddr.opcode]
      cases memImm <;> rfl
  | neg m | inc m | dec m | clr m | tst m | com m | asl m | asr m | lsr m | rol m | ror m | jmp m | jsr m =>
    cases m with
    | idx b =>
      dsimp only [Instr.opcode, MemAddr.opcode]
      cases memImm <;> rfl
    | ext a =>
      refine (instrFrom_wordBytes memImm _ a rest).trans ?_
      dsimp only [Instr.opcode, MemAddr.opcode]
      cases memImm <;> rfl
  | adx m =>
    cases m with
    | imm b =>
      dsimp only [Instr.opcode, AdxOperand.opcode]
      cases memImm <;> rfl
    | ext a =>
      refine (instrFrom_wordBytes memImm _ a rest).trans ?_
      dsimp only [Instr.opcode, AdxOperand.opcode]
      cases memImm <;> rfl
  | nim imm off | oim imm off | xim imm off | tmm imm off =>
    obtain rfl : memImm = true := h
    dsimp only [Instr.opcode]
    rfl
  | bra rel | bhi rel | bls rel | bcc rel | bcs rel | bne rel | beq rel | bvc rel | bvs rel | bpl rel
  | bmi rel | bge rel | blt rel | bgt rel | ble rel | bsr rel =>
    dsimp only [Instr.opcode]
    cases memImm <;> rfl
  | tab | tba | tap | tpa | tsx | txs | psha | pshb | pula | pulb | aba | sba | cba | nega | negb | inca
  | incb | deca | decb | clra | clrb | tsta | tstb | daa | inx | dex | ins | des | coma | comb | asla
  | aslb | asra | asrb | lsra | lsrb | rola | rolb | rora | rorb | rts | nop | clc | sec | clv | sev | cli
  | sei | swi | rti | wai =>
    dsimp only [Instr.opcode]
    cases memImm <;> rfl
  | unrecognised op => exact instrFrom_unrecognised h _

/-- A well-formed instruction has as many bytes as its opcode fixes (30_encoding R112). -/
theorem length_operandBytes {memImm : Bool} {i : Instr} (h : i.wellFormed memImm = true) :
    i.operandBytes.length = lengthOf memImm i.opcode - 1 := by
  rw [← length_instrFrom_operandBytes memImm i.opcode (i.operandBytes ++ []), instrFrom_encoded h]

theorem length_encode {memImm : Bool} {i : Instr} (h : i.wellFormed memImm = true) :
    (encode i).length = lengthOf memImm i.opcode := by
  have hlen := lengthOf_cases memImm i.opcode
  rw [encode, List.length_cons, length_operandBytes h]
  omega

/-- Settles O1: an encoding is long enough to decode, and its bytes make the instruction again. -/
theorem encodeThenDecode : Obligations.EncodeThenDecode := by
  intro memImm i rest h
  have hlen : lengthOf memImm i.opcode ≤ (i.operandBytes ++ rest).length + 1 := by
    rw [← length_encode h, encode, List.length_cons, List.length_append]
    omega
  rw [encode, List.cons_append, decode_cons hlen, instrFrom_encoded h,
    List.drop_left' (length_operandBytes h)]

/-- Two well-formed instructions have different bytes (30_encoding R109). -/
theorem encode_injective {memImm : Bool} {i j : Instr} (hi : i.wellFormed memImm = true)
    (hj : j.wellFormed memImm = true) (h : encode i = encode j) : i = j := by
  have hdecode := encodeThenDecode memImm i [] hi
  rw [h, encodeThenDecode memImm j [] hj] at hdecode
  cases hdecode
  rfl

/-- Settles O3: the instruction of the opcode byte is that of `decode_cons`, and the two readings of an
unrecognised byte are the two round trips. -/
theorem everyOpcodeDecodes : Obligations.EveryOpcodeDecodes := by
  intro memImm op rest
  refine ⟨lengthOf_cases memImm op, fun hlen => ⟨_, decode_cons hlen, instrFrom_opcode memImm op rest, ?_⟩,
    fun h => ?_, fun h => ?_⟩
  · rw [length_encode (instrFrom_wellFormed memImm op rest), instrFrom_opcode]
  · obtain ⟨hwf, -⟩ := decodeThenEncode true _ _ _ h
    simpa [Instr.wellFormed] using hwf
  · exact encodeThenDecode true (.unrecognised op) rest (by simpa [Instr.wellFormed] using h)

/-- Settles O4: each list is the encoding of its instruction, with the bytes left over. -/
theorem sampleWordsDecode : Obligations.SampleWordsDecode :=
  ⟨encodeThenDecode true (.ldaa (.imm 0x80)) [] rfl,
   encodeThenDecode true (.ldx (.ext 0x1234)) [] rfl,
   encodeThenDecode true (.stab (.idx 0x05)) [] rfl,
   encodeThenDecode true (.adda (.dir 0x10)) [] rfl,
   encodeThenDecode true (.adx (.imm 0x10)) [] rfl,
   encodeThenDecode true (.nim 0x0F 0x02) [] rfl,
   encodeThenDecode true (.asl (.ext 0xC001)) [] rfl,
   encodeThenDecode true (.bgt 0xFE) [] rfl,
   encodeThenDecode true (.jsr (.ext 0x2000)) [] rfl,
   encodeThenDecode true .swi [] rfl,
   encodeThenDecode true (.unrecognised 0x87) [0x00] (by decide)⟩

end Sys2Proof
end

section
/-! PROOF. The cost of an instruction (30_encoding R108): its accesses and register writes keep the clock, and it
is charged once. -/

namespace Sys2Proof.Machine

/-- What an instruction adds to the clock. -/
def instrCost (cfg : Config) (i : Instr) : Nat :=
  if i = .unrecognised i.opcode then 1 else cyclesOf cfg i.opcode

/-- `t` has the clock and the parameters of `s`: what the accesses and register writes of an instruction keep. -/
structure SameClock (s t : State) : Prop where
  cfg : t.cfg = s.cfg
  clock : t.clock = s.clock

namespace SameClock

variable {s t u : State}

theorem refl (s : State) : SameClock s s := ⟨rfl, rfl⟩

theorem trans (h : SameClock s t) (h' : SameClock t u) : SameClock s u :=
  ⟨h'.cfg.trans h.cfg, h'.clock.trans h.clock⟩

theorem of_viaOnly (h : ViaOnly s t) : SameClock s t := ⟨h.cfg, h.clock⟩

theorem of_storeFrame {as : List Word} (h : StoreFrame s t as) : SameClock s t := ⟨h.cfg, h.clock⟩

theorem onCpu (f : Cpu → Cpu) (h : SameClock s t) : SameClock s (onCpu f t) := ⟨h.cfg, h.clock⟩

theorem push8 (v : Byte) (h : SameClock s t) : SameClock s (push8 v t) :=
  h.trans ((of_storeFrame (store8_frame _ v t)).onCpu _)

theorem push16 (v : Word) (h : SameClock s t) : SameClock s (push16 v t) := (h.push8 _).push8 _

theorem pushAll (h : SameClock s t) : SameClock s (pushAll t) :=
  ((((h.push16 _).push16 _).push8 _).push8 _).push8 _

theorem pull8 (h : SameClock s t) : SameClock s (pull8 t).2 :=
  (h.onCpu _).trans (of_viaOnly (pull8_viaOnly t))

theorem pull16 (h : SameClock s t) : SameClock s (pull16 t).2 := h.pull8.pull8

/-- A pulled byte written to the CPU record. -/
theorem pull8Into (g : Byte → Cpu → Cpu) (h : SameClock s t) :
    SameClock s (Machine.onCpu (g (Machine.pull8 t).1) (Machine.pull8 t).2) := h.pull8.onCpu _

/-- A pulled word written to the CPU record. -/
theorem pull16Into (g : Word → Cpu → Cpu) (h : SameClock s t) :
    SameClock s (Machine.onCpu (g (Machine.pull16 t).1) (Machine.pull16 t).2) := h.pull16.onCpu _

theorem pullAll (h : SameClock s t) : SameClock s (pullAll t) := by
  have hcc := h.pull8Into Cpu.setCcr
  have hb := hcc.pull8Into fun v k => { k with b := v }
  have ha := hb.pull8Into fun v k => { k with a := v }
  have hx := ha.pull16Into fun v k => { k with ix := v }
  exact hx.pull16Into fun v k => { k with pc := v }

theorem jumpTo (target : Word) (h : SameClock s t) : SameClock s (jumpTo target t) := h.onCpu _

theorem withOperand8 (m : Operand8) (f : Byte → Cpu → Cpu) (h : SameClock s t) :
    SameClock s (withOperand8 m f t) := (h.trans (of_viaOnly (readOperand8_viaOnly m t))).onCpu _

theorem withOperand16 (m : Operand16) (f : Word → Cpu → Cpu) (h : SameClock s t) :
    SameClock s (withOperand16 m f t) := (h.trans (of_viaOnly (readOperand16_viaOnly m t))).onCpu _

theorem modifyByte (ea : Word) (f : Byte → Cpu → Byte × Cpu) (h : SameClock s t) :
    SameClock s (modifyByte ea f t) := by
  have hread := h.trans (of_viaOnly (load8_viaOnly ea t))
  exact (hread.trans (of_storeFrame (store8_frame ea _ _))).onCpu fun _ => _

theorem testByte (ea : Word) (f : Byte → Cpu → Cpu) (h : SameClock s t) :
    SameClock s (testByte ea f t) := (h.trans (of_viaOnly (load8_viaOnly ea t))).onCpu _

theorem branchIf (cond : Bool) (rel : Byte) (h : SameClock s t) : SameClock s (branchIf cond rel t) := by
  cases cond
  case false => exact h
  case true => exact h.jumpTo _

/-- A recognised instruction is charged once, after its accesses, by its opcode (30_encoding R108). -/
theorem finish {i : Instr} (hi : ∀ op, i ≠ .unrecognised op) (h : SameClock s t) :
    ∃ u, Machine.finish i.opcode t = .next u ∧ u.cfg = s.cfg ∧ u.clock = s.clock + instrCost s.cfg i := by
  refine ⟨_, rfl, h.cfg, ?_⟩
  rw [instrCost, if_neg (hi _), chargeOpcode_clock, h.cfg, h.clock]

end SameClock

/-- An entry is charged the cost it is given (60_exceptions R404, 44_system R258). -/
theorem enterThroughVector_cost (vec : Word) (n : Nat) (s : State) :
    (enterThroughVector vec n s).cfg = s.cfg ∧ (enterThroughVector vec n s).clock = s.clock + n := by
  have hpush : SameClock s (pushAll s) := (SameClock.refl s).pushAll
  have hvector := (hpush.onCpu fun k => { k with i := true }).trans (.of_viaOnly (load16_viaOnly vec _))
  rw [enterThroughVector, addCost_cfg, addCost_clock, onCpu_cfg, onCpu_clock, hvector.cfg, hvector.clock]
  exact ⟨rfl, rfl⟩

/-- Every instruction answers a next state and adds its cost; the cases follow the shapes of the meanings. -/
theorem exec_cost (i : Instr) (s : State) :
    ∃ t, exec i s = .next t ∧ t.cfg = s.cfg ∧ t.clock = s.clock + instrCost s.cfg i := by
  have hs := SameClock.refl s
  cases i with
  | ldaa m | ldab m | adda m | addb m | adca m | adcb m | suba m | subb m | sbca m | sbcb m | cmpa m
  | cmpb m | anda m | andb m | bita m | bitb m | oraa m | orab m | eora m | eorb m =>
    exact (hs.withOperand8 m _).finish nofun
  | ldx m | lds m | cpx m => exact (hs.withOperand16 m _).finish nofun
  | adx m => exact ((SameClock.of_viaOnly (readAdxOperand_viaOnly m s)).onCpu _).finish nofun
  | staa m | stab m | clr m => exact ((SameClock.of_storeFrame (store8_frame _ _ s)).onCpu _).finish nofun
  | stx m | sts m => exact ((SameClock.of_storeFrame (store16_frame _ _ s)).onCpu _).finish nofun
  | neg m | inc m | dec m | com m | asl m | asr m | lsr m | rol m | ror m =>
    exact (hs.modifyByte _ _).finish nofun
  | nim imm off | oim imm off | xim imm off => exact (hs.modifyByte _ _).finish nofun
  | tst m => exact (hs.testByte _ _).finish nofun
  | tmm imm off => exact (hs.testByte _ _).finish nofun
  | tab | tba | tap | tpa | tsx | txs | aba | sba | cba | nega | negb | inca | incb | deca | decb | clra
  | clrb | tsta | tstb | daa | inx | dex | ins | des | coma | comb | asla | aslb | asra | asrb | lsra
  | lsrb | rola | rolb | rora | rorb | clc | sec | clv | sev | cli | sei => exact (hs.onCpu _).finish nofun
  | psha | pshb => exact (hs.push8 _).finish nofun
  | pula | pulb => exact (hs.pull8.onCpu _).finish nofun
  | bra rel | bhi rel | bls rel | bcc rel | bcs rel | bne rel | beq rel | bvc rel | bvs rel | bpl rel
  | bmi rel | bge rel | blt rel | bgt rel | ble rel => exact (hs.branchIf _ rel).finish nofun
  | jmp m => exact (hs.onCpu _).finish nofun
  | jsr m | bsr rel => exact ((hs.push16 _).jumpTo _).finish nofun
  | rts => exact (hs.pull16.jumpTo _).finish nofun
  | nop => exact hs.finish nofun
  | wai => exact SameClock.finish (t := { s with req := { s.req with waitActive := true } }) nofun ⟨rfl, rfl⟩
  | rti => exact hs.pullAll.finish nofun
  | swi => exact ⟨_, rfl, enterThroughVector_cost _ _ s⟩
  | unrecognised op => exact ⟨_, rfl, rfl, congrArg (s.clock + ·) (if_pos rfl).symm⟩

/-- Settles O12: `exec_cost` says it with the cost named. -/
theorem everyInstructionCompletesAtItsCost : Obligations.EveryInstructionCompletesAtItsCost := exec_cost

end Sys2Proof.Machine
end

section
/-! PROOF. The fetch is the ordered reads of one instruction's bytes (30_encoding R100, R112, 20_memory R92), and
the step runs the instruction that they decode to. -/

namespace Sys2Proof.Machine

-- Reads in order.

/-- The `n` addresses from `a` up, modulo 65536. -/
def addressesFrom (a : Word) (n : Nat) : List Word := (List.range n).map fun k => a + BitVec.ofNat 16 k

theorem add_ofNat_succ (a : Word) (k : Nat) : a + BitVec.ofNat 16 (k + 1) = a + 1 + BitVec.ofNat 16 k := by
  rw [Nat.add_comm, BitVec.ofNat_add, BitVec.add_assoc]
  rfl

theorem addressesFrom_succ (a : Word) (n : Nat) :
    addressesFrom a (n + 1) = a :: addressesFrom (a + 1) n := by
  simp only [addressesFrom, List.range_succ_eq_map, List.map_cons, List.map_map, Function.comp_def,
    Nat.succ_eq_add_one, add_ofNat_succ, BitVec.add_zero]

theorem loadRun_onCpu (as : List Word) (f : Cpu → Cpu) (s : State) :
    loadRun as (onCpu f s) = ((loadRun as s).1, onCpu f (loadRun as s).2) := by
  induction as generalizing s with
  | nil => rfl
  | cons a rest ih => simp only [loadRun, load8_onCpu, ih]

/-- Reads of addresses the VIA does not own leave the state. -/
theorem loadRun_plain {as : List Word} {s : State} (h : ∀ a ∈ as, owner s a ≠ .via) :
    loadRun as s = (as.map (plainByte s), s) := by
  induction as with
  | nil => rfl
  | cons a rest ih =>
    obtain ⟨ha, hrest⟩ := List.forall_mem_cons.mp h
    simp only [loadRun, load8_plain ha, ih hrest, List.map_cons]

-- The fetch.

/-- `n` calls of `fetch8()` are the `n` reads from pc up, with pc moved past them. -/
theorem fetchMany_eq_loadRun (n : Nat) (s : State) :
    let r := loadRun (addressesFrom s.cpu.pc n) s
    fetchMany n s = (r.1, { r.2 with cpu := { s.cpu with pc := s.cpu.pc + BitVec.ofNat 16 n } }) := by
  induction n generalizing s with
  | zero =>
    simp only [fetchMany, addressesFrom, List.range_zero, List.map_nil, loadRun, BitVec.add_zero]
  | succ n ih =>
    dsimp only
    rw [fetchMany, ih, fetch8_cpu, addressesFrom_succ, add_ofNat_succ]
    simp only [fetch8, loadRun, loadRun_onCpu]
    rfl

/-- The opcode byte is the first of the bytes the fetch reads. -/
theorem fetchBytes_eq_fetchMany (s : State) :
    fetchBytes s = fetchMany (lengthOf s.cfg.memImm (load8 s.cpu.pc s).1) s := by
  have hlen : lengthOf s.cfg.memImm (load8 s.cpu.pc s).1 =
      lengthOf s.cfg.memImm (load8 s.cpu.pc s).1 - 1 + 1 := by
    have hcases := lengthOf_cases s.cfg.memImm (load8 s.cpu.pc s).1
    omega
  rw [hlen]
  rfl

theorem fetchInstr_eq (s : State) :
    fetchInstr s =
      (instrFrom s.cfg.memImm (load8 s.cpu.pc s).1 (fetchBytes s).1.tail, (fetchBytes s).2) := rfl

/-- The instruction fetched is the one whose bytes were read (30_encoding R100). -/
theorem encode_fetchInstr (s : State) : encode (fetchInstr s).1 = (fetchBytes s).1 := by
  have hlen : (fetchBytes s).1.tail.length = lengthOf s.cfg.memImm (load8 s.cpu.pc s).1 - 1 := by
    rw [List.length_tail, fetchBytes_length]; rfl
  rw [fetchInstr_eq, encode, instrFrom_opcode, instrFrom_operandBytes (by omega),
    List.take_of_length_le (by omega)]
  rfl

theorem fetchInstr_wellFormed (s : State) : (fetchInstr s).1.wellFormed s.cfg.memImm = true :=
  instrFrom_wellFormed _ _ _

/-- The fetch reads the bytes of its instruction in ascending address order, from whatever owns them. -/
theorem fetchInstr_reads (s : State) :
    let n := (encode (fetchInstr s).1).length
    let r := loadRun (addressesFrom s.cpu.pc n) s
    r.1 = encode (fetchInstr s).1 ∧
      (fetchInstr s).2 = { r.2 with cpu := { s.cpu with pc := s.cpu.pc + BitVec.ofNat 16 n } } := by
  have hlen : (encode (fetchInstr s).1).length = lengthOf s.cfg.memImm (load8 s.cpu.pc s).1 := by
    rw [length_encode (fetchInstr_wellFormed s), fetchInstr_eq, instrFrom_opcode]
  have hbytes := fetchBytes_eq_fetchMany s
  rw [← hlen, fetchMany_eq_loadRun] at hbytes
  rw [encode_fetchInstr] at hbytes ⊢
  exact ⟨(congrArg Prod.fst hbytes).symm, congrArg Prod.snd hbytes⟩

theorem cpuStep_instruction {s : State} (h : boundaryArm s = .instruction) :
    cpuStep s = exec (fetchInstr s).1 (fetchInstr s).2 := by
  rw [cpuStep, h]

/-- Settles O6: the instruction is the one the fetch answers, and its bytes are those of `fetchInstr_reads`. -/
theorem fetchReadsTheInstructionInOrder : Obligations.FetchReadsTheInstructionInOrder := by
  intro s harm
  obtain ⟨hbytes, hstate⟩ := fetchInstr_reads s
  refine ⟨(fetchInstr s).1, fetchInstr_wellFormed s, hbytes, ?_⟩
  rw [cpuStep_instruction harm, hstate]
  rfl

-- The step.

/-- The bytes in memory, in ROM or in unmapped space that encode an instruction are fetched as it, with pc moved
past them and nothing else changed. -/
theorem fetchInstr_of_plain {s : State} {i : Instr} (hi : i.wellFormed s.cfg.memImm = true)
    (hplain : ∀ a ∈ addressesFrom s.cpu.pc (encode i).length, owner s a ≠ .via)
    (hbytes : (addressesFrom s.cpu.pc (encode i).length).map (plainByte s) = encode i) :
    fetchInstr s =
      (i, { s with cpu := { s.cpu with pc := s.cpu.pc + BitVec.ofNat 16 (encode i).length } }) := by
  have hopcode : (load8 s.cpu.pc s).1 = i.opcode := by
    rw [encode, List.length_cons, addressesFrom_succ] at hplain hbytes
    rw [load8_plain (hplain _ List.mem_cons_self)]
    exact List.head_eq_of_cons_eq hbytes
  have hfetch := fetchBytes_eq_fetchMany s
  rw [hopcode, ← length_encode hi, fetchMany_eq_loadRun, loadRun_plain hplain, hbytes] at hfetch
  have hinstr : (fetchInstr s).1 = i :=
    encode_injective (fetchInstr_wellFormed s) hi ((encode_fetchInstr s).trans (congrArg Prod.fst hfetch))
  have hstate := congrArg Prod.snd hfetch
  exact Prod.ext hinstr hstate

theorem step_of_cpuStep {s t : State} (h : cpuStep s = .next t) :
    step s = .next (ticks (t.clock - s.clock) t) := by
  rw [step, h]
  rfl

/-- Settles O5: the fetch answers the instruction, which completes from there. -/
theorem stepRunsTheDecodedInstruction : Obligations.StepRunsTheDecodedInstruction := by
  intro s i harm hi hcode
  have hplain : ∀ a ∈ addressesFrom s.cpu.pc (encode i).length, owner s a ≠ .via :=
    List.forall_mem_map.mpr fun k hk => (hcode k (List.mem_range.mp hk)).1
  have hbytes : (addressesFrom s.cpu.pc (encode i).length).map (plainByte s) = encode i := by
    refine List.ext_getElem (by simp [addressesFrom]) fun k _ hk => ?_
    obtain ⟨-, hbyte⟩ := hcode k hk
    simpa [addressesFrom, hk] using hbyte
  obtain ⟨t, hexec, -⟩ := exec_cost i
    { s with cpu := { s.cpu with pc := s.cpu.pc + BitVec.ofNat 16 (encode i).length } }
  have hstep : cpuStep s = .next t := by
    rw [cpuStep_instruction harm, fetchInstr_of_plain hi hplain hbytes, hexec]
  exact ⟨t, hexec, step_of_cpuStep hstep⟩

end Sys2Proof.Machine
end

section
/-! PROOF. The operand forms (30_encoding R103 to R107, R115): the effective addresses as numbers. -/

namespace Sys2Proof.Machine

theorem eaDir_toNat (b : Byte) : (eaDir b).toNat = b.toNat := by
  simp only [eaDir, zext16, BitVec.truncate_eq_setWidth, BitVec.toNat_setWidth]
  omega

theorem eaIdx_toNat (b : Byte) (s : State) : (eaIdx b s).toNat = (s.cpu.ix.toNat + b.toNat) % 65536 := by
  rw [eaIdx, BitVec.toNat_add, ← eaDir_toNat b, eaDir]

/-- The relative byte is signed, and the target wraps (30_encoding R107). -/
theorem relTarget_toNat (pc : Word) (rel : Byte) :
    ((relTarget pc rel).toNat : Int) = (pc.toNat + rel.toInt) % 65536 := by
  have hsext : (sext16 rel).toInt = rel.toInt := BitVec.toInt_signExtend_of_le (by decide)
  have hwrap : (sext16 rel).toInt % 65536 = (sext16 rel).toNat % 65536 := by
    rw [BitVec.toInt_eq_toNat_bmod]
    exact Int.bmod_emod
  rw [relTarget, BitVec.toNat_add, ← hsext]
  omega

/-- Settles O25: the addresses as numbers; each form makes its own access. -/
theorem effectiveAddresses : Obligations.EffectiveAddresses := fun s b _ =>
  ⟨eaDir_toNat b, eaIdx_toNat b s, relTarget_toNat s.cpu.pc b, ⟨rfl, rfl, rfl, rfl⟩, ⟨rfl, rfl, rfl, rfl⟩,
    ⟨eaDir_toNat b, rfl, rfl⟩, ⟨rfl, rfl, rfl⟩, rfl, rfl⟩

end Sys2Proof.Machine
end

section
/-! PROOF. The shapes of the instruction meanings as `completed`: what a computation on the CPU record, an operand
read, a store, a push or a pull leaves when the opcode is charged (30_encoding R108), and the flag helpers of
Machine/Flags.lean in the vocabulary of the statements (41_arithmetic R150). -/

namespace Sys2Proof.Machine

-- N and Z.

/-- Bit 7 is the sign. -/
theorem getLsbD_seven_eq_isNeg8 (r : Byte) : r.getLsbD 7 = isNeg8 r :=
  (BitVec.msb_eq_getLsbD_last r).symm.trans BitVec.msb_eq_toInt

/-- Bit 15 is the sign. -/
theorem getLsbD_fifteen_eq_isNeg16 (r : Word) : r.getLsbD 15 = isNeg16 r :=
  (BitVec.msb_eq_getLsbD_last r).symm.trans BitVec.msb_eq_toInt

theorem setNZ8_eq_withNZV8 (r : Byte) (k : Cpu) : setNZ8 r k = withNZV8 r k.v k := by
  rw [setNZ8, getLsbD_seven_eq_isNeg8]
  rfl

theorem setNZ16_eq_withNZV16 (r : Word) (k : Cpu) : setNZ16 r k = withNZV16 r k.v k := by
  rw [setNZ16, getLsbD_fifteen_eq_isNeg16]
  rfl

theorem setNZ8V0_eq_withNZV8 (r : Byte) (k : Cpu) : setNZ8V0 r k = withNZV8 r false k := by
  rw [setNZ8V0, setNZ8_eq_withNZV8]
  rfl

theorem setNZ16V0_eq_withNZV16 (r : Word) (k : Cpu) : setNZ16V0 r k = withNZV16 r false k := by
  rw [setNZ16V0, setNZ16_eq_withNZV16]
  rfl

/-- The accumulator written is no flag, so the order of the two writes does not matter (40_load_store_transfer
R121). -/
theorem loadAcc_eq_setAcc (acc : Acc) (v : Byte) (k : Cpu) :
    loadAcc acc v k = setAcc acc v (withNZV8 v false k) := by
  rw [loadAcc, setNZ8V0_eq_withNZV8]
  cases acc <;> rfl

-- Instructions that end in a computation on the CPU record.

theorem finish_onCpu (i : Instr) (f : Cpu → Cpu) (s : State) :
    finish i.opcode (onCpu f s) = .next (completed i s (f s.cpu)) := rfl

/-- The operand read keeps the CPU record, so the computation sees the registers from before it. -/
theorem finish_withOperand8 (i : Instr) (m : Operand8) (f : Byte → Cpu → Cpu) (s : State) :
    finish i.opcode (withOperand8 m f s) =
      .next (completed i (readOperand8 m s).2 (f (readOperand8 m s).1 s.cpu)) := by
  rw [withOperand8, finish_onCpu, (readOperand8_viaOnly m s).cpu]

theorem finish_withOperand16 (i : Instr) (m : Operand16) (f : Word → Cpu → Cpu) (s : State) :
    finish i.opcode (withOperand16 m f s) =
      .next (completed i (readOperand16 m s).2 (f (readOperand16 m s).1 s.cpu)) := by
  rw [withOperand16, finish_onCpu, (readOperand16_viaOnly m s).cpu]

/-- An instruction pair whose meanings are one computation `g`, on A and on B, follows the
rule `f` when `g` writes what `f` gives. -/
theorem accumulatorRule_of_withOperand8 {onA onB : Operand8 → Instr} {f : Byte → Byte → Cpu → Byte × Cpu}
    (g : Acc → Byte → Cpu → Cpu)
    (hA : ∀ m s, exec (onA m) s = finish (onA m).opcode (withOperand8 m (g .a) s))
    (hB : ∀ m s, exec (onB m) s = finish (onB m).opcode (withOperand8 m (g .b) s))
    (hg : ∀ acc m k, g acc m k = setAcc acc (f (getAcc acc k) m k).1 (f (getAcc acc k) m k).2) :
    AccumulatorRule onA onB f := by
  intro m s
  constructor
  · rw [hA, finish_withOperand8, hg]
    rfl
  · rw [hB, finish_withOperand8, hg]
    rfl

-- Stores.

/-- A store keeps the CPU record, so the flags are written to the registers from before it. -/
theorem finish_onCpu_store8 (i : Instr) (f : Cpu → Cpu) (a : Word) (v : Byte) (s : State) :
    finish i.opcode (onCpu f (store8 a v s)) = .next (completed i (store8 a v s) (f s.cpu)) := by
  rw [finish_onCpu, (store8_frame a v s).cpu]

theorem store16_eq_storeRun (a v : Word) (s : State) :
    store16 a v s = storeRun [(a, hiByte v), (a + 1, loByte v)] s := rfl

theorem finish_storeAcc (i : Instr) (acc : Acc) (ea : Word) (s : State) :
    finish i.opcode (storeAcc acc ea s) =
      .next (completed i (store8 ea (getAcc acc s.cpu) s) (withNZV8 (getAcc acc s.cpu) false s.cpu)) := by
  rw [storeAcc, finish_onCpu_store8, setNZ8V0_eq_withNZV8]

/-- The shape of STX and STS (40_load_store_transfer R125, R126). -/
theorem finish_storeWord (i : Instr) (ea r : Word) (s : State) :
    finish i.opcode (onCpu (setNZ16V0 r) (store16 ea r s)) =
      .next (completed i (storeRun [(ea, hiByte r), (ea + 1, loByte r)] s) (withNZV16 r false s.cpu)) := by
  rw [finish_onCpu, (store16_frame ea r s).cpu, setNZ16V0_eq_withNZV16, store16_eq_storeRun]

-- The stack.

theorem finish_push8 (i : Instr) (v : Byte) (s : State) :
    finish i.opcode (push8 v s) =
      .next (completed i (store8 s.cpu.sp v s) { s.cpu with sp := s.cpu.sp - 1 }) := by
  rw [push8, finish_onCpu_store8]

/-- The byte above SP is read, and the read does not look at SP. -/
theorem pull8_eq_load8 (s : State) :
    pull8 s =
      ((load8 (s.cpu.sp + 1) s).1, onCpu (fun k => { k with sp := k.sp + 1 }) (load8 (s.cpu.sp + 1) s).2) :=
  load8_onCpu (s.cpu.sp + 1) (fun k => { k with sp := k.sp + 1 }) s

theorem finish_pullAcc (i : Instr) (acc : Acc) (s : State) :
    finish i.opcode (pullAcc acc s) =
      .next (completed i (load8 (s.cpu.sp + 1) s).2
        (setAcc acc (load8 (s.cpu.sp + 1) s).1 { s.cpu with sp := s.cpu.sp + 1 })) := by
  rw [pullAcc, pull8_eq_load8, onCpu_onCpu, finish_onCpu, (load8_viaOnly (s.cpu.sp + 1) s).cpu]

end Sys2Proof.Machine
end

section
/-! PROOF. Loads, stores, transfers and stack moves (40_load_store_transfer R121 to R134): each instruction is one of
the shapes above. -/

namespace Sys2Proof.Machine

/-- Settles O27: the operand is read as its form says, then the register and its flags are written. -/
theorem loads : Obligations.Loads :=
  ⟨accumulatorRule_of_withOperand8 loadAcc (fun _ _ => rfl) (fun _ _ => rfl) loadAcc_eq_setAcc,
    fun m s =>
      ⟨(finish_withOperand16 (.ldx m) m _ s).trans (by rw [setNZ16V0_eq_withNZV16]),
        (finish_withOperand16 (.lds m) m _ s).trans (by rw [setNZ16V0_eq_withNZV16])⟩,
    fun _ _ => ⟨⟨rfl, rfl⟩, ⟨rfl, rfl⟩, ⟨rfl, rfl⟩, rfl, rfl⟩,
    fun _ _ => ⟨⟨rfl, rfl⟩, ⟨rfl, rfl⟩, ⟨rfl, rfl⟩, rfl, rfl⟩,
    fun _ _ => ⟨⟨rfl, rfl⟩, ⟨rfl, rfl⟩, ⟨rfl, rfl⟩, rfl, rfl⟩,
    fun _ _ => ⟨⟨rfl, rfl⟩, ⟨rfl, rfl⟩, ⟨rfl, rfl⟩, rfl, rfl⟩⟩

/-- Settles O28: no clause asks who owns the address, so the flags are those of a dropped store too. -/
theorem stores : Obligations.Stores :=
  ⟨fun m s =>
      ⟨finish_storeAcc (.staa m) .a _ s, finish_storeAcc (.stab m) .b _ s,
        finish_storeWord (.stx m) _ s.cpu.ix s, finish_storeWord (.sts m) _ s.cpu.sp s⟩,
    fun _ _ => ⟨⟨rfl, rfl⟩, ⟨rfl, rfl⟩, rfl, rfl⟩,
    fun _ _ => ⟨⟨rfl, rfl⟩, ⟨rfl, rfl⟩, rfl, rfl⟩,
    fun _ _ => ⟨⟨rfl, rfl⟩, ⟨rfl, rfl⟩, rfl, rfl⟩,
    fun _ _ => ⟨⟨rfl, rfl⟩, ⟨rfl, rfl⟩, rfl, rfl⟩⟩

-- Transfers.

/-- The flags TAP takes from a byte, each bit by division (40_load_store_transfer R129). -/
theorem setCcr_eq_div (v : Byte) (k : Cpu) :
    Cpu.setCcr v k =
      { k with
        h := v.toNat / 32 % 2 == 1, i := v.toNat / 16 % 2 == 1, n := v.toNat / 8 % 2 == 1
        z := v.toNat / 4 % 2 == 1, v := v.toNat / 2 % 2 == 1, c := v.toNat % 2 == 1 } := by
  have hbit (i : Nat) : v.getLsbD i = (v.toNat / 2 ^ i % 2 == 1) := Nat.testBit_eq_decide_div_mod_eq
  simp only [Cpu.setCcr, hbit, Nat.reducePow, Nat.div_one]

/-- The byte TPA makes of the flags, as a sum (40_load_store_transfer R130). -/
theorem ccr_eq_sum (k : Cpu) :
    k.ccr = BitVec.ofNat 8 (192 + 32 * bitNat k.h + 16 * bitNat k.i + 8 * bitNat k.n + 4 * bitNat k.z
      + 2 * bitNat k.v + bitNat k.c) := rfl

theorem word_add_one_eq_ofNat (w : Word) : w + 1 = BitVec.ofNat 16 ((w.toNat + 1) % 65536) := by
  bv_omega

theorem word_sub_one_eq_ofNat (w : Word) : w - 1 = BitVec.ofNat 16 ((w.toNat + 65535) % 65536) := by
  bv_omega

/-- Settles O29: each transfer is one computation on the CPU record. -/
theorem transfers : Obligations.Transfers := by
  refine ⟨fun s => ⟨?tab, ?tba, ?tap, ?tpa, ?tsx, ?txs⟩,
    ⟨rfl, rfl⟩, ⟨rfl, rfl⟩, ⟨rfl, rfl⟩, ⟨rfl, rfl⟩, ⟨rfl, rfl⟩, rfl, rfl⟩
  case tab => exact (finish_onCpu .tab _ s).trans (by rw [setNZ8V0_eq_withNZV8])
  case tba => exact (finish_onCpu .tba _ s).trans (by rw [setNZ8V0_eq_withNZV8])
  case tap => exact (finish_onCpu .tap _ s).trans (by rw [setCcr_eq_div])
  case tpa => exact (finish_onCpu .tpa _ s).trans (by rw [ccr_eq_sum])
  case tsx => exact (finish_onCpu .tsx _ s).trans (by rw [word_add_one_eq_ofNat])
  case txs => exact (finish_onCpu .txs _ s).trans (by rw [word_sub_one_eq_ofNat])

/-- Settles O30: the access is made at SP or above it, and no clause asks who owns the address. -/
theorem pushAndPull : Obligations.PushAndPull :=
  ⟨fun s =>
      ⟨finish_push8 .psha s.cpu.a s, finish_push8 .pshb s.cpu.b s, finish_pullAcc .pula .a s,
        finish_pullAcc .pulb .b s⟩,
    ⟨rfl, rfl⟩, ⟨rfl, rfl⟩, ⟨rfl, rfl⟩, rfl, rfl⟩

end Sys2Proof.Machine
end

section
/-! PROOF. Signed and unsigned arithmetic on bytes and words (41_arithmetic R150): what the bit rules of
Machine/Flags.lean for sums, differences, negation and increments give, in the vocabulary of the statements. -/

namespace Sys2Proof.Machine

theorem bitNat_le_one (b : Bool) : bitNat b ≤ 1 := by cases b <;> decide

theorem toInt_byte_bounds (x : Byte) : -128 ≤ x.toInt ∧ x.toInt ≤ 127 :=
  ⟨x.le_toInt, Int.le_of_lt_add_one x.toInt_lt⟩

/-- The signed value of a byte made from a number: a multiple of 256 away, and in range. -/
theorem toInt_ofInt_byte (z : Int) :
    ∃ q : Int, (BitVec.ofInt 8 z).toInt = z - 256 * q ∧ -128 ≤ z - 256 * q ∧ z - 256 * q ≤ 127 := by
  rw [BitVec.toInt_ofInt]
  exact ⟨(z + 128) / 256, by rw [Int.bmod_def]; omega, by omega, by omega⟩

-- Sums and differences are the same modulo 256, signed or unsigned.

theorem ofNat_sum_eq_ofInt (x y : Byte) (n : Nat) :
    BitVec.ofNat 8 (x.toNat + y.toNat + n) = BitVec.ofInt 8 (x.toInt + y.toInt + n) := by
  simp [BitVec.ofInt_add, BitVec.ofNat_add, BitVec.ofInt_natCast]

theorem ofInt_difference_toNat_eq_toInt (x y : Byte) (n : Int) :
    BitVec.ofInt 8 (x.toNat - y.toNat - n) = BitVec.ofInt 8 (x.toInt - y.toInt - n) := by
  simp [sub_eq_add_neg, BitVec.ofInt_add, BitVec.ofInt_neg, BitVec.ofInt_natCast]

-- V by the signs of the operands and the result is the signed overflow (R150).

theorem sum_signs_eq_overflow8 (x y : Byte) (carry : Bool) :
    (isNeg8 x == isNeg8 y && isNeg8 (BitVec.ofInt 8 (x.toInt + y.toInt + bitNat carry)) != isNeg8 x) =
      overflow8 (x.toInt + y.toInt + bitNat carry) := by
  obtain ⟨q, hq, hlow, hhigh⟩ := toInt_ofInt_byte (x.toInt + y.toInt + bitNat carry)
  have hx := toInt_byte_bounds x
  have hy := toInt_byte_bounds y
  have hc := bitNat_le_one carry
  rw [Bool.eq_iff_iff]
  simp only [isNeg8, overflow8, hq, Bool.and_eq_true, beq_iff_eq, bne_iff_ne, ne_eq, decide_eq_decide,
    decide_eq_true_eq]
  omega

theorem difference_signs_eq_overflow8 (x y : Byte) (borrow : Bool) :
    (isNeg8 x != isNeg8 y && isNeg8 (BitVec.ofInt 8 (x.toInt - y.toInt - bitNat borrow)) != isNeg8 x) =
      overflow8 (x.toInt - y.toInt - bitNat borrow) := by
  obtain ⟨q, hq, hlow, hhigh⟩ := toInt_ofInt_byte (x.toInt - y.toInt - bitNat borrow)
  have hx := toInt_byte_bounds x
  have hy := toInt_byte_bounds y
  have hc := bitNat_le_one borrow
  rw [Bool.eq_iff_iff]
  simp only [isNeg8, overflow8, hq, Bool.and_eq_true, bne_iff_ne, ne_eq, decide_eq_decide, decide_eq_true_eq]
  omega

theorem add8_eq_sum8 (x y : Byte) (carry : Bool) (k : Cpu) : add8 x y carry k = sum8 x y carry k := by
  simp only [add8, sum8, setNZ8_eq_withNZV8, getLsbD_seven_eq_isNeg8, ofNat_sum_eq_ofInt, sum_signs_eq_overflow8]
  rfl

theorem sub8_eq_difference8 (x y : Byte) (borrow : Bool) (k : Cpu) :
    sub8 x y borrow k = difference8 x y borrow k := by
  have hborrow : ((x.toNat : Int) - y.toNat - bitNat borrow < 0) = (x.toNat < y.toNat + bitNat borrow) :=
    propext (by omega)
  simp only [sub8, difference8, setNZ8_eq_withNZV8, getLsbD_seven_eq_isNeg8, ofInt_difference_toNat_eq_toInt,
    difference_signs_eq_overflow8, hborrow]
  rfl

-- NEG, INC, DEC (R159 to R161): the signed result overflows at one byte.

theorem beq_eq_overflow8 {m b : Byte} {z : Int} (h : m.toInt = b.toInt ↔ z < -128 ∨ 127 < z) :
    (m == b) = overflow8 z := by
  rw [beq_eq_decide, overflow8, decide_eq_decide, ← h, BitVec.toInt_inj]

theorem negByte_eq (m : Byte) (k : Cpu) :
    negByte m k =
      (BitVec.ofInt 8 (-m.toInt),
        withNZV8 (BitVec.ofInt 8 (-m.toInt)) (overflow8 (-m.toInt)) { k with c := decide (0 < m.toNat) }) := by
  have hresult : 0 - m = BitVec.ofInt 8 (-m.toInt) := by simp [BitVec.ofInt_neg]
  have hv : (BitVec.ofInt 8 (-m.toInt) == 0x80) = overflow8 (-m.toInt) := by
    obtain ⟨q, hq, hlow, hhigh⟩ := toInt_ofInt_byte (-m.toInt)
    have hm := toInt_byte_bounds m
    exact beq_eq_overflow8 (by simp only [hq, BitVec.reduceToInt]; omega)
  have hc : (0 - m != 0x00) = decide (0 < m.toNat) := by
    rw [Bool.eq_iff_iff, bne_iff_ne, decide_eq_true_eq]
    bv_omega
  rw [negByte, hc, hresult, hv, setNZ8_eq_withNZV8]
  rfl

theorem incByte_eq (m : Byte) (k : Cpu) :
    incByte m k =
      (BitVec.ofInt 8 (m.toInt + 1), withNZV8 (BitVec.ofInt 8 (m.toInt + 1)) (overflow8 (m.toInt + 1)) k) := by
  have hresult : m + 1 = BitVec.ofInt 8 (m.toInt + 1) := by simp [BitVec.ofInt_add]
  have hm := toInt_byte_bounds m
  have hv : (m == 0x7F) = overflow8 (m.toInt + 1) :=
    beq_eq_overflow8 (by simp only [BitVec.reduceToInt]; omega)
  rw [incByte, hv, hresult, setNZ8_eq_withNZV8]
  rfl

theorem decByte_eq (m : Byte) (k : Cpu) :
    decByte m k =
      (BitVec.ofInt 8 (m.toInt - 1), withNZV8 (BitVec.ofInt 8 (m.toInt - 1)) (overflow8 (m.toInt - 1)) k) := by
  have hresult : m - 1 = BitVec.ofInt 8 (m.toInt - 1) := by simp [sub_eq_add_neg, BitVec.ofInt_add]
  have hm := toInt_byte_bounds m
  have hv : (m == 0x80) = overflow8 (m.toInt - 1) :=
    beq_eq_overflow8 (by simp only [BitVec.reduceToInt]; omega)
  rw [decByte, hv, hresult, setNZ8_eq_withNZV8]
  rfl

-- Words: V is the library's signed overflow.

theorem isNeg16_eq_msb (x : Word) : isNeg16 x = x.msb := BitVec.msb_eq_toInt.symm

theorem sum_signs_eq_overflow16 (x y : Word) :
    (isNeg16 x == isNeg16 y && isNeg16 (x + y) != isNeg16 x) = overflow16 (x.toInt + y.toInt) := by
  have hoverflow : x.saddOverflow y = overflow16 (x.toInt + y.toInt) := by
    rw [BitVec.saddOverflow, ← Bool.decide_or, overflow16, decide_eq_decide]
    omega
  rw [← hoverflow, BitVec.saddOverflow_eq]
  simp only [isNeg16_eq_msb]
  rfl

theorem difference_signs_eq_overflow16 (x y : Word) :
    (isNeg16 x != isNeg16 y && isNeg16 (x - y) != isNeg16 x) = overflow16 (x.toInt - y.toInt) := by
  have hoverflow : x.ssubOverflow y = overflow16 (x.toInt - y.toInt) := by
    rw [BitVec.ssubOverflow, ← Bool.decide_or, overflow16, decide_eq_decide]
    omega
  rw [← hoverflow, BitVec.ssubOverflow_eq]
  simp only [isNeg16_eq_msb]
  cases x.msb <;> cases y.msb <;> simp

-- CPX and ADX (R169, R178).

/-- The sign of a word is that of its high byte. -/
theorem isNeg8_hiByte (x : Word) : isNeg8 (hiByte x) = isNeg16 x := by
  rw [← getLsbD_seven_eq_isNeg8, ← getLsbD_fifteen_eq_isNeg16, hiByte, BitVec.getLsbD_extractLsb']
  rfl

theorem cpxNV_sixteenBit (ix m : Word) :
    cpxNV .sixteenBit ix m = (isNeg16 (ix - m), overflow16 (ix.toInt - m.toInt)) := by
  simp only [cpxNV, getLsbD_fifteen_eq_isNeg16, difference_signs_eq_overflow16]

theorem cpxNV_highByte (ix m : Word) :
    cpxNV .highByte ix m =
      (isNeg8 (hiByte ix - hiByte m), overflow8 ((hiByte ix).toInt - (hiByte m).toInt)) := by
  have hdifference : hiByte ix - hiByte m =
      BitVec.ofInt 8 ((hiByte ix).toInt - (hiByte m).toInt - bitNat false) := by
    simp [bitNat, sub_eq_add_neg, BitVec.ofInt_add, BitVec.ofInt_neg]
  simp only [cpxNV, getLsbD_fifteen_eq_isNeg16, getLsbD_seven_eq_isNeg8, ← isNeg8_hiByte]
  rw [hdifference, difference_signs_eq_overflow8, bitNat]
  simp

theorem compareIx_eq (cfg : Config) (m : Word) (k : Cpu) :
    compareIx cfg m k =
      { k with
        z := decide (k.ix = m), n := (cpxNV cfg.cpxNV k.ix m).1, v := (cpxNV cfg.cpxNV k.ix m).2 } := by
  have hz : (k.ix - m == 0) = decide (k.ix = m) := by
    rw [beq_eq_decide, decide_eq_decide]
    bv_omega
  rw [compareIx, hz]

theorem addToIx_eq (m : Word) (k : Cpu) :
    addToIx m k =
      withNZV16 (k.ix + m) (overflow16 (k.ix.toInt + m.toInt))
        { k with ix := k.ix + m, c := decide (65536 ≤ k.ix.toNat + m.toNat) } := by
  have hsum : BitVec.ofNat 16 (k.ix.toNat + m.toNat) = k.ix + m := by simp [BitVec.ofNat_add]
  simp only [addToIx, hsum, setNZ16_eq_withNZV16, getLsbD_fifteen_eq_isNeg16, sum_signs_eq_overflow16]
  rfl

end Sys2Proof.Machine
end

section
/-! PROOF. Decimal adjust (41_arithmetic R164): the correction by the digits, and why it makes the packed decimal sum
after ADC. -/

namespace Sys2Proof.Machine

theorem daaCorrection_eq (a : Byte) (h c : Bool) :
    daaCorrection a h c =
      (if 9 < a.toNat % 16 ∨ h then 6 else 0) +
        (if 9 < a.toNat / 16 ∨ c ∨ (8 < a.toNat / 16 ∧ 9 < a.toNat % 16) then 96 else 0) := by
  simp only [daaCorrection, Bool.or_eq_true, Bool.and_eq_true, decide_eq_true_eq, gt_iff_lt, or_assoc]

theorem daaAcc_eq (cfg : Config) (k : Cpu) :
    daaAcc cfg k =
      withNZV8 (BitVec.ofNat 8 (k.a.toNat + daaCorrection k.a k.h k.c)) (daaV cfg k.a k.h k.c)
        { k with
          a := BitVec.ofNat 8 (k.a.toNat + daaCorrection k.a k.h k.c)
          c := k.c || decide (255 < k.a.toNat + daaCorrection k.a k.h k.c) } := by
  simp only [daaAcc, setNZ8_eq_withNZV8]
  rfl

theorem daaAcc_a_toNat (cfg : Config) (k : Cpu) :
    (daaAcc cfg k).a.toNat = (k.a.toNat + daaCorrection k.a k.h k.c) % 256 := BitVec.toNat_ofNat _ _

theorem daaAcc_c (cfg : Config) (k : Cpu) :
    (daaAcc cfg k).c = (k.c || decide (255 < k.a.toNat + daaCorrection k.a k.h k.c)) := rfl

theorem sum8_fst_toNat (x y : Byte) (carry : Bool) (k : Cpu) :
    (sum8 x y carry k).1.toNat = (x.toNat + y.toNat + bitNat carry) % 256 := BitVec.toNat_ofNat _ _

theorem sum8_h (x y : Byte) (carry : Bool) (k : Cpu) :
    (sum8 x y carry k).2.h = decide (16 ≤ x.toNat % 16 + y.toNat % 16 + bitNat carry) := rfl

theorem sum8_c (x y : Byte) (carry : Bool) (k : Cpu) :
    (sum8 x y carry k).2.c = decide (256 ≤ x.toNat + y.toNat + bitNat carry) := rfl

theorem packedBcd_toNat {n : Nat} (hn : n < 100) : (packedBcd n).toNat = n / 10 * 16 + n % 10 := by
  rw [packedBcd, BitVec.toNat_ofNat]
  omega

/-- When H and C are those of a binary sum whose decimal digits add up to `tens` and `ones` (carry included), the low
digit is corrected exactly when the ones carry in decimal, and the high digit exactly when the whole sum does. -/
theorem daaCorrection_packed_sum {tens ones : Nat} (htens : tens ≤ 18) (hones : ones ≤ 19) {a : Byte}
    (ha : a.toNat = (16 * tens + ones) % 256) :
    daaCorrection a (decide (16 ≤ ones)) (decide (256 ≤ 16 * tens + ones)) =
      (if 10 ≤ ones then 6 else 0) + (if 100 ≤ 10 * tens + ones then 96 else 0) := by
  have hlow : 9 < a.toNat % 16 ∨ 16 ≤ ones ↔ 10 ≤ ones := by omega
  have hhigh : 9 < a.toNat / 16 ∨ 256 ≤ 16 * tens + ones ∨ 8 < a.toNat / 16 ∧ 9 < a.toNat % 16 ↔
      100 ≤ 10 * tens + ones := by omega
  simp only [daaCorrection_eq, decide_eq_true_eq, hlow, hhigh]

/-- Six more for a decimal carry out of the ones and 96 more for one out of the tens give the decimal digits of the
sum, each in its four bits. -/
theorem corrected_binary_sum {tens ones : Nat} (htens : tens ≤ 18) (hones : ones ≤ 19) :
    ((16 * tens + ones) % 256 + ((if 10 ≤ ones then 6 else 0) + (if 100 ≤ 10 * tens + ones then 96 else 0))) % 256 =
      (10 * tens + ones) % 100 / 10 * 16 + (10 * tens + ones) % 100 % 10 := by
  have hmod : (10 * tens + ones) % 100 = 10 * tens + ones - (if 100 ≤ 10 * tens + ones then 100 else 0) := by
    split <;> omega
  rw [hmod]
  split <;> split <;> omega

/-- DAA where A, H and C are those of such a sum: the packed decimal sum modulo 100, and C the decimal carry. -/
theorem daaAcc_packed_sum (cfg : Config) {tens ones : Nat} (htens : tens ≤ 18) (hones : ones ≤ 19) {k : Cpu}
    (ha : k.a.toNat = (16 * tens + ones) % 256) (hh : k.h = decide (16 ≤ ones))
    (hc : k.c = decide (256 ≤ 16 * tens + ones)) :
    (daaAcc cfg k).a = packedBcd ((10 * tens + ones) % 100) ∧
      (daaAcc cfg k).c = decide (100 ≤ 10 * tens + ones) := by
  have hfix : daaCorrection k.a k.h k.c =
      (if 10 ≤ ones then 6 else 0) + (if 100 ≤ 10 * tens + ones then 96 else 0) := by
    rw [hh, hc, daaCorrection_packed_sum htens hones ha]
  constructor
  · apply BitVec.eq_of_toNat_eq
    rw [daaAcc_a_toNat, hfix, ha, packedBcd_toNat (Nat.mod_lt _ (by decide)), corrected_binary_sum htens hones]
  · rw [daaAcc_c, hfix, ha, hc, ← Bool.decide_or, decide_eq_decide]
    split <;> split <;> omega

/-- The binary sum of two packed two-digit numbers leaves A, H and C as `daaAcc_packed_sum` asks. -/
theorem daaAcc_sum8_packed (cfg : Config) {x y : Nat} (hx : x < 100) (hy : y < 100) (carry : Bool) (k : Cpu) :
    let r := sum8 (packedBcd x) (packedBcd y) carry k
    let d := daaAcc cfg { r.2 with a := r.1 }
    d.a = packedBcd ((x + y + bitNat carry) % 100) ∧ d.c = decide (100 ≤ x + y + bitNat carry) := by
  intro r d
  have hcarry := bitNat_le_one carry
  have htotal : x + y + bitNat carry = 10 * (x / 10 + y / 10) + (x % 10 + y % 10 + bitNat carry) := by omega
  have hbinary : (packedBcd x).toNat + (packedBcd y).toNat + bitNat carry =
      16 * (x / 10 + y / 10) + (x % 10 + y % 10 + bitNat carry) := by
    rw [packedBcd_toNat hx, packedBcd_toNat hy]
    omega
  have hones : (packedBcd x).toNat % 16 + (packedBcd y).toNat % 16 + bitNat carry =
      x % 10 + y % 10 + bitNat carry := by
    rw [packedBcd_toNat hx, packedBcd_toNat hy]
    omega
  rw [htotal]
  exact daaAcc_packed_sum cfg (by omega) (by omega) (by rw [sum8_fst_toNat, hbinary])
    (by rw [sum8_h, hones]) (by rw [sum8_c, hbinary])

end Sys2Proof.Machine
end

section
/-! PROOF. Arithmetic, compare, increment, decimal adjust (41_arithmetic R151 to R169, R178): each instruction is one
of the shapes above with one of these computations. -/

namespace Sys2Proof.Machine

-- Two operands (R151 to R158).

theorem addToAcc_eq_setAcc (acc : Acc) (m : Byte) (k : Cpu) :
    addToAcc acc m k = setAcc acc (sum8 (getAcc acc k) m false k).1 (sum8 (getAcc acc k) m false k).2 := by
  rw [addToAcc, add8_eq_sum8]

theorem adcToAcc_eq_setAcc (acc : Acc) (m : Byte) (k : Cpu) :
    adcToAcc acc m k = setAcc acc (sum8 (getAcc acc k) m k.c k).1 (sum8 (getAcc acc k) m k.c k).2 := by
  rw [adcToAcc, add8_eq_sum8]

theorem subFromAcc_eq_setAcc (acc : Acc) (m : Byte) (k : Cpu) :
    subFromAcc acc m k =
      setAcc acc (difference8 (getAcc acc k) m false k).1 (difference8 (getAcc acc k) m false k).2 := by
  rw [subFromAcc, sub8_eq_difference8]

theorem sbcFromAcc_eq_setAcc (acc : Acc) (m : Byte) (k : Cpu) :
    sbcFromAcc acc m k =
      setAcc acc (difference8 (getAcc acc k) m k.c k).1 (difference8 (getAcc acc k) m k.c k).2 := by
  rw [sbcFromAcc, sub8_eq_difference8]

theorem compareAcc_eq_difference8 (acc : Acc) (m : Byte) (k : Cpu) :
    compareAcc acc m k = (difference8 (getAcc acc k) m false k).2 := by
  rw [compareAcc, sub8_eq_difference8]

/-- The difference writes flags only, so an accumulator written back with its own value is one not written (R157). -/
theorem compareAcc_eq_setAcc (acc : Acc) (m : Byte) (k : Cpu) :
    compareAcc acc m k = setAcc acc (getAcc acc k) (difference8 (getAcc acc k) m false k).2 := by
  rw [compareAcc_eq_difference8]
  cases acc <;> rfl

/-- Settles O31: each addition is `sum8` on its accumulator. -/
theorem additions : Obligations.Additions :=
  ⟨accumulatorRule_of_withOperand8 addToAcc (fun _ _ => rfl) (fun _ _ => rfl) addToAcc_eq_setAcc,
    accumulatorRule_of_withOperand8 adcToAcc (fun _ _ => rfl) (fun _ _ => rfl) adcToAcc_eq_setAcc,
    fun s => (finish_onCpu .aba _ s).trans (by rw [addToAcc_eq_setAcc]; rfl),
    fun _ _ => ⟨⟨rfl, rfl⟩, ⟨rfl, rfl⟩, ⟨rfl, rfl⟩, rfl, rfl⟩,
    fun _ _ => ⟨⟨rfl, rfl⟩, ⟨rfl, rfl⟩, ⟨rfl, rfl⟩, rfl, rfl⟩,
    fun _ _ => ⟨⟨rfl, rfl⟩, ⟨rfl, rfl⟩, ⟨rfl, rfl⟩, rfl, rfl⟩,
    fun _ _ => ⟨⟨rfl, rfl⟩, ⟨rfl, rfl⟩, ⟨rfl, rfl⟩, rfl, rfl⟩, rfl, rfl⟩

/-- Settles O32: each subtraction is `difference8` on its accumulator. -/
theorem subtractions : Obligations.Subtractions :=
  ⟨accumulatorRule_of_withOperand8 subFromAcc (fun _ _ => rfl) (fun _ _ => rfl) subFromAcc_eq_setAcc,
    accumulatorRule_of_withOperand8 sbcFromAcc (fun _ _ => rfl) (fun _ _ => rfl) sbcFromAcc_eq_setAcc,
    fun s => (finish_onCpu .sba _ s).trans (by rw [subFromAcc_eq_setAcc]; rfl),
    fun _ _ => ⟨⟨rfl, rfl⟩, ⟨rfl, rfl⟩, ⟨rfl, rfl⟩, rfl, rfl⟩,
    fun _ _ => ⟨⟨rfl, rfl⟩, ⟨rfl, rfl⟩, ⟨rfl, rfl⟩, rfl, rfl⟩,
    fun _ _ => ⟨⟨rfl, rfl⟩, ⟨rfl, rfl⟩, ⟨rfl, rfl⟩, rfl, rfl⟩,
    fun _ _ => ⟨⟨rfl, rfl⟩, ⟨rfl, rfl⟩, ⟨rfl, rfl⟩, rfl, rfl⟩, rfl, rfl⟩

/-- Settles O33: a compare is `difference8` for its flags alone. -/
theorem compares : Obligations.Compares :=
  ⟨accumulatorRule_of_withOperand8 compareAcc (fun _ _ => rfl) (fun _ _ => rfl) compareAcc_eq_setAcc,
    fun s => (finish_onCpu .cba _ s).trans (by rw [compareAcc_eq_difference8]; rfl),
    fun _ _ => ⟨⟨rfl, rfl⟩, ⟨rfl, rfl⟩, ⟨rfl, rfl⟩, rfl, rfl⟩,
    fun _ _ => ⟨⟨rfl, rfl⟩, ⟨rfl, rfl⟩, ⟨rfl, rfl⟩, rfl, rfl⟩, rfl, rfl⟩

-- One operand (R159 to R163).

/-- The read and the write of a read-modify-write keep the CPU record, so the computation sees the registers from
before them and its flags are the last word. -/
theorem finish_modifyByte (i : Instr) (ea : Word) (f : Byte → Cpu → Byte × Cpu) (s : State) :
    finish i.opcode (modifyByte ea f s) =
      .next (completed i (store8 ea (f (load8 ea s).1 s.cpu).1 (load8 ea s).2) (f (load8 ea s).1 s.cpu).2) := by
  rw [modifyByte, finish_onCpu, (load8_viaOnly ea s).cpu]

theorem finish_testByte (i : Instr) (ea : Word) (f : Byte → Cpu → Cpu) (s : State) :
    finish i.opcode (testByte ea f s) = .next (completed i (load8 ea s).2 (f (load8 ea s).1 s.cpu)) := by
  rw [testByte, finish_onCpu, (load8_viaOnly ea s).cpu]

/-- Three instructions whose meanings are one computation `g`, on A, on B and on a memory byte, follow the rule `f`
when `g` gives what `f` gives. -/
theorem oneOperandRule_of_modify {onA onB : Instr} {onM : MemAddr → Instr} {f : Byte → Cpu → Byte × Cpu}
    (g : Byte → Cpu → Byte × Cpu) (hA : ∀ s, exec onA s = finish onA.opcode (onCpu (modifyAcc .a g) s))
    (hB : ∀ s, exec onB s = finish onB.opcode (onCpu (modifyAcc .b g) s))
    (hM : ∀ m s, exec (onM m) s = finish (onM m).opcode (modifyByte (memEa m s) g s))
    (hg : ∀ m k, g m k = f m k) : OneOperandRule onA onB onM f := by
  obtain rfl : g = f := funext fun m => funext fun k => hg m k
  intro s
  exact ⟨(hA s).trans (finish_onCpu onA _ s), (hB s).trans (finish_onCpu onB _ s),
    fun m => (hM m s).trans (finish_modifyByte (onM m) _ g s)⟩

theorem testFlagsOf_eq (m : Byte) (k : Cpu) : testFlagsOf m k = { withNZV8 m false k with c := false } := by
  rw [testFlagsOf, setNZ8_eq_withNZV8]
  rfl

/-- Settles O34: NEG, INC and DEC are read-modify-writes, CLR a write and TST a read. -/
theorem oneOperandArithmetic : Obligations.OneOperandArithmetic := by
  refine ⟨oneOperandRule_of_modify negByte (fun _ => rfl) (fun _ => rfl) (fun _ _ => rfl) negByte_eq,
    oneOperandRule_of_modify incByte (fun _ => rfl) (fun _ => rfl) (fun _ _ => rfl) incByte_eq,
    oneOperandRule_of_modify decByte (fun _ => rfl) (fun _ => rfl) (fun _ _ => rfl) decByte_eq,
    fun s => ⟨?clra, ?clrb, ?tsta, ?tstb, fun m => ⟨?clr, ?tst⟩⟩,
    ⟨⟨rfl, rfl⟩, ⟨rfl, rfl⟩, fun _ _ => ⟨⟨rfl, rfl⟩, rfl, rfl⟩⟩,
    ⟨⟨rfl, rfl⟩, ⟨rfl, rfl⟩, fun _ _ => ⟨⟨rfl, rfl⟩, rfl, rfl⟩⟩,
    ⟨⟨rfl, rfl⟩, ⟨rfl, rfl⟩, fun _ _ => ⟨⟨rfl, rfl⟩, rfl, rfl⟩⟩,
    ⟨⟨rfl, rfl⟩, ⟨rfl, rfl⟩, fun _ _ => ⟨⟨rfl, rfl⟩, rfl, rfl⟩⟩,
    ⟨⟨rfl, rfl⟩, ⟨rfl, rfl⟩, fun _ _ => ⟨⟨rfl, rfl⟩, rfl, rfl⟩⟩⟩
  case clra => exact finish_onCpu .clra _ s
  case clrb => exact finish_onCpu .clrb _ s
  case tsta => exact (finish_onCpu .tsta _ s).trans (by rw [testFlagsOf_eq])
  case tstb => exact (finish_onCpu .tstb _ s).trans (by rw [testFlagsOf_eq])
  case clr => exact finish_onCpu_store8 (.clr m) _ _ 0 s
  case tst => exact (finish_testByte (.tst m) _ _ s).trans (by rw [testFlagsOf_eq])

-- Decimal adjust (R164).

/-- Settles O35: the correction by the digits, and the decimal sum after ADC. -/
theorem decimalAdjust : Obligations.DecimalAdjust := by
  refine ⟨fun s => ⟨?daa, fun x y hx hy ha => ?afterAdc⟩, rfl, rfl⟩
  case daa => exact (finish_onCpu .daa _ s).trans (by rw [daaAcc_eq, daaCorrection_eq])
  case afterAdc =>
    have hadc : exec (.adca (.imm (packedBcd y))) s =
        .next (completed (.adca (.imm (packedBcd y))) s (adcToAcc .a (packedBcd y) s.cpu)) := rfl
    refine ⟨_, _, hadc, finish_onCpu .daa _ _, ?_⟩
    rw [completed_cpu, completed_cpu, adcToAcc_eq_setAcc, getAcc, ha]
    exact daaAcc_sum8_packed _ hx hy s.cpu.c s.cpu

-- Sixteen bits (R165 to R169, R178).

theorem beq_zero_eq_decide_toNat (x : Word) : (x == 0) = decide (x.toNat = 0) := by
  rw [beq_eq_decide, decide_eq_decide]
  bv_omega

theorem finish_addToIx (i : Instr) (m : AdxOperand) (s : State) :
    finish i.opcode (onCpu (addToIx (readAdxOperand m s).1) (readAdxOperand m s).2) =
      .next (completed i (readAdxOperand m s).2 (addToIx (readAdxOperand m s).1 s.cpu)) := by
  rw [finish_onCpu, (readAdxOperand_viaOnly m s).cpu]

/-- Settles O36: INX to DES are one computation each, CPX and ADX read their operand first. -/
theorem indexAndStackArithmetic : Obligations.IndexAndStackArithmetic := by
  refine ⟨fun s => ⟨?inx, ?dex, ?ins, ?des⟩, fun m s => ?cpx, fun m s => ?adx,
    ⟨rfl, rfl⟩, ⟨rfl, rfl⟩, ⟨rfl, rfl⟩, ⟨rfl, rfl⟩,
    fun _ _ => ⟨⟨rfl, rfl⟩, ⟨rfl, rfl⟩, ⟨rfl, rfl⟩, rfl, rfl⟩, fun _ _ => ⟨⟨rfl, rfl⟩, rfl, rfl⟩⟩
  case inx => exact (finish_onCpu .inx _ s).trans (by rw [beq_zero_eq_decide_toNat])
  case dex => exact (finish_onCpu .dex _ s).trans (by rw [beq_zero_eq_decide_toNat])
  case ins => exact finish_onCpu .ins _ s
  case des => exact finish_onCpu .des _ s
  case cpx =>
    refine (finish_withOperand16 (.cpx m) m _ s).trans ?_
    rw [compareIx_eq]
    cases s.cfg.cpxNV with
    | sixteenBit => rw [cpxNV_sixteenBit]
    | highByte => rw [cpxNV_highByte]
  case adx => exact (finish_addToIx (.adx m) m s).trans (by rw [addToIx_eq])

end Sys2Proof.Machine
end

section
/-! PROOF. Shifts and rotates by one place as arithmetic (42_logic_shift R195), and the tests of masked bits
(R204): what the bit rules of Machine/Flags.lean for COM, the shifts and the memory-immediate instructions give, in the
vocabulary of the statements. -/

namespace Sys2Proof.Machine

-- The bit shifted out.

theorem getLsbD_seven_eq_decide (m : Byte) : m.getLsbD 7 = decide (128 ≤ m.toNat) :=
  (BitVec.msb_eq_getLsbD_last m).symm.trans (BitVec.msb_eq_decide m)

theorem getLsbD_zero_eq_decide (m : Byte) : m.getLsbD 0 = decide (m.toNat % 2 = 1) := Nat.testBit_zero _

-- The bit shifted in enters at the place the shift left empty, so it is added.

theorem shiftLeft_eq_ofNat (m : Byte) : m <<< 1 = BitVec.ofNat 8 (2 * m.toNat) := by bv_omega

theorem ushiftRight_eq_ofNat (m : Byte) : m >>> 1 = BitVec.ofNat 8 (m.toNat / 2) := by bv_omega

theorem shiftLeft_or_bit_zero (m : Byte) (b : Bool) :
    (m <<< 1 ||| if b then 0x01 else 0x00) = BitVec.ofNat 8 (2 * m.toNat + bitNat b) := by
  cases b with
  | false => exact BitVec.or_zero.trans (shiftLeft_eq_ofNat m)
  | true =>
    have hempty : m <<< 1 &&& BitVec.twoPow 8 0 = 0 := by simp [BitVec.and_twoPow]
    calc m <<< 1 ||| 0x01
      _ = m <<< 1 + 0x01 := (BitVec.add_eq_or_of_and_eq_zero _ _ hempty).symm
      _ = BitVec.ofNat 8 (2 * m.toNat + 1) := by bv_omega

theorem ushiftRight_or_bit_seven (m : Byte) (b : Bool) :
    (m >>> 1 ||| if b then 0x80 else 0x00) = BitVec.ofNat 8 (m.toNat / 2 + 128 * bitNat b) := by
  cases b with
  | false => exact BitVec.or_zero.trans (ushiftRight_eq_ofNat m)
  | true =>
    have hempty : m >>> 1 &&& BitVec.twoPow 8 7 = 0 := by simp [BitVec.and_twoPow]
    calc m >>> 1 ||| 0x80
      _ = m >>> 1 + 0x80 := (BitVec.add_eq_or_of_and_eq_zero _ _ hempty).symm
      _ = BitVec.ofNat 8 (m.toNat / 2 + 128 * 1) := by bv_omega

/-- Keeping bit 7 is shifting it in, and halves the signed number rounded down (R197). -/
theorem ushiftRight_or_sign (m : Byte) : m >>> 1 ||| (m &&& 0x80) = BitVec.ofInt 8 (m.toInt / 2) := by
  have hsign : m &&& 0x80 = if m.getLsbD 7 then 0x80 else 0x00 := BitVec.and_twoPow m 7
  rw [hsign, ushiftRight_or_bit_seven, getLsbD_seven_eq_decide]
  apply BitVec.eq_of_toNat_eq
  rw [BitVec.toNat_ofNat, BitVec.toNat_ofInt, BitVec.toInt_eq_toNat_cond, bitNat]
  by_cases hneg : 128 ≤ m.toNat <;> simp [hneg] <;> omega

-- The computations of COM and the shifts (R194 to R200).

theorem comByte_eq (m : Byte) (k : Cpu) :
    comByte m k =
      (BitVec.ofNat 8 (255 - m.toNat), { withNZV8 (BitVec.ofNat 8 (255 - m.toNat)) false k with c := true }) := by
  have hresult : ~~~m = BitVec.ofNat 8 (255 - m.toNat) := by bv_omega
  rw [comByte, hresult, setNZ8_eq_withNZV8]
  rfl

theorem shiftFlags_eq_shifted8 (r : Byte) (out : Bool) (k : Cpu) :
    (r, shiftFlags r out k) = shifted8 r out k := by
  rw [shiftFlags, setNZ8_eq_withNZV8]
  rfl

theorem aslByte_eq (m : Byte) (k : Cpu) :
    aslByte m k = shifted8 (BitVec.ofNat 8 (2 * m.toNat)) (decide (128 ≤ m.toNat)) k := by
  rw [aslByte, shiftFlags_eq_shifted8, shiftLeft_eq_ofNat, getLsbD_seven_eq_decide]

theorem asrByte_eq (m : Byte) (k : Cpu) :
    asrByte m k = shifted8 (BitVec.ofInt 8 (m.toInt / 2)) (decide (m.toNat % 2 = 1)) k := by
  rw [asrByte, shiftFlags_eq_shifted8, ushiftRight_or_sign, getLsbD_zero_eq_decide]

theorem lsrByte_eq (m : Byte) (k : Cpu) :
    lsrByte m k = shifted8 (BitVec.ofNat 8 (m.toNat / 2)) (decide (m.toNat % 2 = 1)) k := by
  rw [lsrByte, shiftFlags_eq_shifted8, ushiftRight_eq_ofNat, getLsbD_zero_eq_decide]

theorem rolByte_eq (m : Byte) (k : Cpu) :
    rolByte m k = shifted8 (BitVec.ofNat 8 (2 * m.toNat + bitNat k.c)) (decide (128 ≤ m.toNat)) k := by
  rw [rolByte, shiftFlags_eq_shifted8, shiftLeft_or_bit_zero, getLsbD_seven_eq_decide]

theorem rorByte_eq (m : Byte) (k : Cpu) :
    rorByte m k = shifted8 (BitVec.ofNat 8 (m.toNat / 2 + 128 * bitNat k.c)) (decide (m.toNat % 2 = 1)) k := by
  rw [rorByte, shiftFlags_eq_shifted8, ushiftRight_or_bit_seven, getLsbD_zero_eq_decide]

-- The flags of the memory-immediate instructions (R201 to R204) where the parameters list no other value (U9).

theorem setNZV_memImmFlags_of_unlisted {cfg : Config} {r : Byte} (h : cfg.memImmFlagOverrides.lookup r = none)
    (k : Cpu) :
    setNZV (memImmFlags cfg r) k = { k with n := decide (0 < r.toNat), z := decide (r.toNat = 0), v := false } := by
  have hz : (r == 0) = decide (r.toNat = 0) := by
    rw [beq_eq_decide, decide_eq_decide]
    bv_omega
  have hn : (r != 0) = decide (0 < r.toNat) := by
    rw [bne, hz, ← decide_not, decide_eq_decide]
    exact Nat.pos_iff_ne_zero.symm
  rw [memImmFlags, h, Option.getD_none, hn, hz]
  rfl

/-- Two bytes differ when one of their eight bits does. -/
theorem any_bit_bne (x y : Byte) : ((List.range 8).any fun j => x.getLsbD j != y.getLsbD j) = (x != y) := by
  rw [Bool.eq_iff_iff, List.any_eq_true, bne_iff_ne, ne_eq, BitVec.eq_of_getLsbD_eq_iff]
  simp only [List.mem_range, bne_iff_ne, ne_eq, not_forall, exists_prop]

/-- Some masked bit is one. -/
theorem any_masked_one (m imm : Byte) :
    ((List.range 8).any fun j => imm.getLsbD j && m.getLsbD j) = (m &&& imm != 0) := by
  rw [← any_bit_bne]
  congr 1
  funext j
  rw [BitVec.getLsbD_and, Bool.and_comm]
  exact ((congrArg _ BitVec.getLsbD_zero).trans (Bool.bne_false _)).symm

/-- Some masked bit is zero. -/
theorem any_masked_zero (m imm : Byte) :
    ((List.range 8).any fun j => imm.getLsbD j && !m.getLsbD j) = (m &&& imm != imm) := by
  rw [← any_bit_bne]
  congr 1
  funext j
  rw [BitVec.getLsbD_and]
  cases imm.getLsbD j <;> cases m.getLsbD j <;> rfl

/-- The flags TMM writes, from the masked bits (R204). -/
theorem tmmDefaultFlags_eq (m imm : Byte) :
    tmmDefaultFlags m imm =
      let someOne := (List.range 8).any fun j => imm.getLsbD j && m.getLsbD j
      let someZero := (List.range 8).any fun j => imm.getLsbD j && !m.getLsbD j
      ⟨someOne && someZero, !someOne, someOne && !someZero⟩ := by
  have hguard : (imm == 0 || m &&& imm == 0) = (m &&& imm == 0) := by
    have hempty : imm = 0 → m &&& imm = 0 := by
      rintro rfl
      exact BitVec.and_zero
    rw [Bool.eq_iff_iff, Bool.or_eq_true, beq_iff_eq, beq_iff_eq]
    exact or_iff_right_of_imp hempty
  rw [any_masked_one, any_masked_zero, tmmDefaultFlags, bne, bne, hguard]
  cases m &&& imm == 0 with
  | true => rfl
  | false => cases m &&& imm == imm <;> rfl

theorem setNZV_tmmFlags_of_unlisted {cfg : Config} {m imm : Byte}
    (h : cfg.tmmFlagOverrides.lookup (m, imm) = none) (k : Cpu) :
    setNZV (tmmFlags cfg m imm) k =
      let someOne := (List.range 8).any fun j => imm.getLsbD j && m.getLsbD j
      let someZero := (List.range 8).any fun j => imm.getLsbD j && !m.getLsbD j
      { k with z := !someOne, v := someOne && !someZero, n := someOne && someZero } := by
  rw [tmmFlags, h, Option.getD_none, tmmDefaultFlags_eq]
  rfl

end Sys2Proof.Machine
end

section
/-! PROOF. Logic, complement, shifts, memory-immediate (42_logic_shift R190 to R204): each instruction is one of the
shapes above with one of these computations. -/

namespace Sys2Proof.Machine

-- AND, BIT, ORA, EOR (R190 to R193).

theorem andAcc_eq_setAcc (acc : Acc) (m : Byte) (k : Cpu) :
    andAcc acc m k = setAcc acc (getAcc acc k &&& m) (withNZV8 (getAcc acc k &&& m) false k) :=
  loadAcc_eq_setAcc acc _ k

theorem orAcc_eq_setAcc (acc : Acc) (m : Byte) (k : Cpu) :
    orAcc acc m k = setAcc acc (getAcc acc k ||| m) (withNZV8 (getAcc acc k ||| m) false k) :=
  loadAcc_eq_setAcc acc _ k

theorem eorAcc_eq_setAcc (acc : Acc) (m : Byte) (k : Cpu) :
    eorAcc acc m k = setAcc acc (getAcc acc k ^^^ m) (withNZV8 (getAcc acc k ^^^ m) false k) :=
  loadAcc_eq_setAcc acc _ k

/-- BIT writes flags only, so an accumulator written back with its own value is one not written (R191). -/
theorem bitAcc_eq_setAcc (acc : Acc) (m : Byte) (k : Cpu) :
    bitAcc acc m k = setAcc acc (getAcc acc k) (withNZV8 (getAcc acc k &&& m) false k) := by
  rw [bitAcc, setNZ8V0_eq_withNZV8]
  cases acc <;> rfl

/-- Settles O37: AND, ORA and EOR load their accumulator with the result, BIT keeps it. -/
theorem logicOnAccumulators : Obligations.LogicOnAccumulators :=
  ⟨accumulatorRule_of_withOperand8 andAcc (fun _ _ => rfl) (fun _ _ => rfl) andAcc_eq_setAcc,
    accumulatorRule_of_withOperand8 bitAcc (fun _ _ => rfl) (fun _ _ => rfl) bitAcc_eq_setAcc,
    accumulatorRule_of_withOperand8 orAcc (fun _ _ => rfl) (fun _ _ => rfl) orAcc_eq_setAcc,
    accumulatorRule_of_withOperand8 eorAcc (fun _ _ => rfl) (fun _ _ => rfl) eorAcc_eq_setAcc,
    fun _ _ => ⟨⟨rfl, rfl⟩, ⟨rfl, rfl⟩, ⟨rfl, rfl⟩, rfl, rfl⟩,
    fun _ _ => ⟨⟨rfl, rfl⟩, ⟨rfl, rfl⟩, ⟨rfl, rfl⟩, rfl, rfl⟩,
    fun _ _ => ⟨⟨rfl, rfl⟩, ⟨rfl, rfl⟩, ⟨rfl, rfl⟩, rfl, rfl⟩,
    fun _ _ => ⟨⟨rfl, rfl⟩, ⟨rfl, rfl⟩, ⟨rfl, rfl⟩, rfl, rfl⟩,
    fun _ _ => ⟨⟨rfl, rfl⟩, ⟨rfl, rfl⟩, ⟨rfl, rfl⟩, rfl, rfl⟩,
    fun _ _ => ⟨⟨rfl, rfl⟩, ⟨rfl, rfl⟩, ⟨rfl, rfl⟩, rfl, rfl⟩,
    fun _ _ => ⟨⟨rfl, rfl⟩, ⟨rfl, rfl⟩, ⟨rfl, rfl⟩, rfl, rfl⟩,
    fun _ _ => ⟨⟨rfl, rfl⟩, ⟨rfl, rfl⟩, ⟨rfl, rfl⟩, rfl, rfl⟩⟩

/-- Settles O38: COM and each shift are one computation, on A, on B and on a memory byte. -/
theorem complementAndShifts : Obligations.ComplementAndShifts :=
  ⟨oneOperandRule_of_modify comByte (fun _ => rfl) (fun _ => rfl) (fun _ _ => rfl) comByte_eq,
    oneOperandRule_of_modify aslByte (fun _ => rfl) (fun _ => rfl) (fun _ _ => rfl) aslByte_eq,
    oneOperandRule_of_modify asrByte (fun _ => rfl) (fun _ => rfl) (fun _ _ => rfl) asrByte_eq,
    oneOperandRule_of_modify lsrByte (fun _ => rfl) (fun _ => rfl) (fun _ _ => rfl) lsrByte_eq,
    oneOperandRule_of_modify rolByte (fun _ => rfl) (fun _ => rfl) (fun _ _ => rfl) rolByte_eq,
    oneOperandRule_of_modify rorByte (fun _ => rfl) (fun _ => rfl) (fun _ _ => rfl) rorByte_eq,
    ⟨⟨rfl, rfl⟩, ⟨rfl, rfl⟩, fun _ _ => ⟨⟨rfl, rfl⟩, rfl, rfl⟩⟩,
    ⟨⟨rfl, rfl⟩, ⟨rfl, rfl⟩, fun _ _ => ⟨⟨rfl, rfl⟩, rfl, rfl⟩⟩,
    ⟨⟨rfl, rfl⟩, ⟨rfl, rfl⟩, fun _ _ => ⟨⟨rfl, rfl⟩, rfl, rfl⟩⟩,
    ⟨⟨rfl, rfl⟩, ⟨rfl, rfl⟩, fun _ _ => ⟨⟨rfl, rfl⟩, rfl, rfl⟩⟩,
    ⟨⟨rfl, rfl⟩, ⟨rfl, rfl⟩, fun _ _ => ⟨⟨rfl, rfl⟩, rfl, rfl⟩⟩,
    ⟨⟨rfl, rfl⟩, ⟨rfl, rfl⟩, fun _ _ => ⟨⟨rfl, rfl⟩, rfl, rfl⟩⟩⟩

/-- Settles O39: NIM, OIM and XIM are read-modify-writes and TMM a read; the parameters decide only the flags. -/
theorem memoryImmediate : Obligations.MemoryImmediate :=
  ⟨fun imm off s =>
      ⟨⟨finish_modifyByte (.nim imm off) _ _ s, fun h => setNZV_memImmFlags_of_unlisted h s.cpu⟩,
        ⟨finish_modifyByte (.oim imm off) _ _ s, fun h => setNZV_memImmFlags_of_unlisted h s.cpu⟩,
        ⟨finish_modifyByte (.xim imm off) _ _ s, fun h => setNZV_memImmFlags_of_unlisted h s.cpu⟩,
        finish_testByte (.tmm imm off) _ _ s, fun h => setNZV_tmmFlags_of_unlisted h s.cpu⟩,
    fun _ _ => ⟨⟨rfl, rfl⟩, ⟨rfl, rfl⟩, ⟨rfl, rfl⟩, rfl, rfl⟩⟩

end Sys2Proof.Machine
end

section
/-! PROOF. Branches (43_branch_jump R221 to R236): the one shape of the fifteen, and what each pair of opposite
branches decides after a compare. -/

namespace Sys2Proof.Machine

-- The shape of a branch.

/-- Taken or not, a branch is charged alike and writes pc alone (R221). -/
theorem finish_branchIf (i : Instr) (taken : Bool) (rel : Byte) (s : State) :
    finish i.opcode (branchIf taken rel s) =
      .next (completed i s (if taken then { s.cpu with pc := relTarget s.cpu.pc rel } else s.cpu)) := by
  cases taken <;> rfl

/-- An instruction that branches on the test `test` of the CPU record follows the rule of the condition `cond` that
the test decides. -/
theorem branchRule_of_branchIf {i : Byte → Instr} {op : Byte} {cond : Cpu → Prop} (test : Cpu → Bool)
    (hrow : ∀ rel, RowIs (i rel) op 4)
    (hexec : ∀ rel s, exec (i rel) s = finish (i rel).opcode (branchIf (test s.cpu) rel s))
    (htest : ∀ k, test k = true ↔ cond k) : BranchRule i op cond := by
  refine ⟨hrow, fun rel s => ⟨fun hcond => ?_, fun hcond => ?_⟩⟩
  · rw [hexec, finish_branchIf, if_pos ((htest s.cpu).mpr hcond)]
  · rw [hexec, finish_branchIf, if_neg (mt (htest s.cpu).mp hcond)]

/-- Settles O40: each branch tests its own flags. -/
theorem simpleBranches : Obligations.SimpleBranches :=
  ⟨branchRule_of_branchIf (fun _ => true) (fun _ => ⟨rfl, rfl⟩) (fun _ _ => rfl) (by simp),
    branchRule_of_branchIf (fun k => !(k.c || k.z)) (fun _ => ⟨rfl, rfl⟩) (fun _ _ => rfl) (by simp),
    branchRule_of_branchIf (fun k => k.c || k.z) (fun _ => ⟨rfl, rfl⟩) (fun _ _ => rfl) (by simp),
    branchRule_of_branchIf (fun k => !k.c) (fun _ => ⟨rfl, rfl⟩) (fun _ _ => rfl) (by simp),
    branchRule_of_branchIf (fun k => k.c) (fun _ => ⟨rfl, rfl⟩) (fun _ _ => rfl) (by simp),
    branchRule_of_branchIf (fun k => !k.z) (fun _ => ⟨rfl, rfl⟩) (fun _ _ => rfl) (by simp),
    branchRule_of_branchIf (fun k => k.z) (fun _ => ⟨rfl, rfl⟩) (fun _ _ => rfl) (by simp),
    branchRule_of_branchIf (fun k => !k.v) (fun _ => ⟨rfl, rfl⟩) (fun _ _ => rfl) (by simp),
    branchRule_of_branchIf (fun k => k.v) (fun _ => ⟨rfl, rfl⟩) (fun _ _ => rfl) (by simp),
    branchRule_of_branchIf (fun k => !k.n) (fun _ => ⟨rfl, rfl⟩) (fun _ _ => rfl) (by simp),
    branchRule_of_branchIf (fun k => k.n) (fun _ => ⟨rfl, rfl⟩) (fun _ _ => rfl) (by simp)⟩

/-- Settles O41: the signed branches test whether N and V agree, the last two with Z. -/
theorem signedBranches : Obligations.SignedBranches :=
  ⟨branchRule_of_branchIf (fun k => k.n == k.v) (fun _ => ⟨rfl, rfl⟩) (fun _ _ => rfl) (by simp),
    branchRule_of_branchIf (fun k => k.n != k.v) (fun _ => ⟨rfl, rfl⟩) (fun _ _ => rfl) (by simp),
    branchRule_of_branchIf (fun k => !(k.z || k.n != k.v)) (fun _ => ⟨rfl, rfl⟩) (fun _ _ => rfl) (by simp),
    branchRule_of_branchIf (fun k => k.z || k.n != k.v) (fun _ => ⟨rfl, rfl⟩) (fun _ _ => rfl) (by simp)⟩

-- The flags of a compare as orders.

theorem difference8_c_eq_true_iff (x y : Byte) (k : Cpu) :
    (difference8 x y false k).2.c = true ↔ x.toNat < y.toNat := decide_eq_true_iff

theorem difference8_z_eq_true_iff (x y : Byte) (k : Cpu) : (difference8 x y false k).2.z = true ↔ x = y := by
  have hdifference : BitVec.ofInt 8 (x.toInt - y.toInt - bitNat false) = x - y := by
    simp [bitNat, sub_eq_add_neg, BitVec.ofInt_add, BitVec.ofInt_neg]
  rw [difference8, withNZV8, decide_eq_true_iff, hdifference]
  exact sub_eq_zero

/-- The sign of the exact difference is the sign of the byte, corrected where the byte overflows. -/
theorem difference8_n_eq_v_iff (x y : Byte) (k : Cpu) :
    (difference8 x y false k).2.n = (difference8 x y false k).2.v ↔ y.toInt ≤ x.toInt := by
  obtain ⟨q, hq, hlow, hhigh⟩ := toInt_ofInt_byte (x.toInt - y.toInt - bitNat false)
  have hx := toInt_byte_bounds x
  have hy := toInt_byte_bounds y
  have hzero : bitNat false = 0 := rfl
  simp only [difference8, withNZV8, isNeg8, overflow8, hq, decide_eq_decide]
  omega

theorem exec_cmpa_imm_cpu {m : Byte} {s t : State} (h : exec (.cmpa (.imm m)) s = .next t) :
    t.cpu = (difference8 s.cpu.a m false s.cpu).2 := by
  obtain rfl := Host.Outcome.next.inj ((finish_withOperand8 (.cmpa (.imm m)) (.imm m) _ s).symm.trans h)
  exact compareAcc_eq_difference8 .a m s.cpu

-- Opposite branches.

/-- The branch `i` goes to its relative target. -/
def BranchGoes (i : Instr) (rel : Byte) (s : State) : Prop :=
  exec i s = .next (completed i s { s.cpu with pc := relTarget s.cpu.pc rel })

/-- The branch `i` falls through to the next instruction. -/
def BranchFalls (i : Instr) (s : State) : Prop := exec i s = .next (completed i s s.cpu)

/-- Of two branches whose conditions exclude each other, the first goes exactly where `order` decides, the second
exactly elsewhere. -/
theorem BranchRule.decides {i j : Byte → Instr} {op op' : Byte} {p q : Cpu → Prop} {order : Prop} [Decidable order]
    (hi : BranchRule i op p) (hj : BranchRule j op' q) {s : State} (rel : Byte) (hp : p s.cpu ↔ order)
    (hq : q s.cpu ↔ ¬order) :
    if order then BranchGoes (i rel) rel s ∧ BranchFalls (j rel) s
    else BranchFalls (i rel) s ∧ BranchGoes (j rel) rel s := by
  obtain ⟨-, hi⟩ := hi
  obtain ⟨-, hj⟩ := hj
  obtain ⟨higoes, hifalls⟩ := hi rel s
  obtain ⟨hjgoes, hjfalls⟩ := hj rel s
  split
  · next ho => exact ⟨higoes (hp.mpr ho), hjfalls fun h => hq.mp h ho⟩
  · next ho => exact ⟨hifalls fun h => ho (hp.mp h), hjgoes (hq.mpr ho)⟩

/-- Settles O42: C is the unsigned order, Z equality, and N against V the signed order. -/
theorem branchAfterCompare : Obligations.BranchAfterCompare := by
  intro m rel s t h
  obtain ⟨-, hbhi, hbls, hbcc, hbcs, hbne, hbeq, -⟩ := simpleBranches
  obtain ⟨hbge, hblt, hbgt, hble⟩ := signedBranches
  have hc := difference8_c_eq_true_iff s.cpu.a m s.cpu
  have hz := difference8_z_eq_true_iff s.cpu.a m s.cpu
  have hnv := difference8_n_eq_v_iff s.cpu.a m s.cpu
  rw [← exec_cmpa_imm_cpu h] at hc hz hnv
  have hnat : s.cpu.a = m ↔ s.cpu.a.toNat = m.toNat := BitVec.toNat_inj.symm
  have hint : s.cpu.a = m ↔ s.cpu.a.toInt = m.toInt := BitVec.toInt_inj.symm
  refine ⟨hbhi.decides hbls rel ?hi ?ls, hbcc.decides hbcs rel ?cc ?cs, hbeq.decides hbne rel hz ?ne,
    hbge.decides hblt rel hnv (not_congr hnv), hbgt.decides hble rel ?gt ?le⟩
  case hi => rw [← Bool.not_eq_true, ← Bool.not_eq_true, hc, hz, hnat]; omega
  case ls => rw [hc, hz, hnat]; omega
  case cc => rw [← Bool.not_eq_true, hc]; omega
  case cs => rw [hc]; omega
  case ne => rw [← Bool.not_eq_true, hz]
  case gt => rw [← Bool.not_eq_true, hz, hnv, hint]; omega
  case le => rw [hz, ne_eq, hnv, hint]; omega

end Sys2Proof.Machine
end

section
/-! PROOF. Jumps, calls and the return (43_branch_jump R237 to R240): a call is two stores and a jump, a return two
reads and a jump, and the return undoes the call. -/

namespace Sys2Proof.Machine

-- Words on the stack.

/-- The two writes of a word pushed, low byte first, do not look at SP, so they can be made before it moves. -/
theorem push16_eq_storeRun (v : Word) (s : State) :
    push16 v s =
      onCpu (fun k => { k with sp := k.sp - 2 })
        (storeRun [(s.cpu.sp, loByte v), (s.cpu.sp - 1, hiByte v)] s) := by
  have hsp (w : Word) : w - 1 - 1 = w - 2 := by bv_omega
  rw [push16, push8, push8_cpu, push8, store8_onCpu, onCpu_onCpu]
  simp only [hsp, storeRun]

/-- The two reads of a word pulled, high byte first, do not look at SP either. -/
theorem pull16_eq_loadRun (s : State) :
    let r := loadRun [s.cpu.sp + 1, s.cpu.sp + 2] s
    pull16 s =
      (joinBytes (r.1.getD 0 0) (r.1.getD 1 0), onCpu (fun k => { k with sp := k.sp + 2 }) r.2) := by
  have hsp (w : Word) : w + 1 + 1 = w + 2 := by bv_omega
  simp only [pull16, pull8_eq_load8, onCpu_cpu, (load8_viaOnly (s.cpu.sp + 1) s).cpu, load8_onCpu, onCpu_onCpu, hsp,
    loadRun, List.getD_cons_zero, List.getD_cons_succ]

theorem storeRun_cpu (ws : List (Word × Byte)) (s : State) : (storeRun ws s).cpu = s.cpu := by
  induction ws generalizing s with
  | nil => rfl
  | cons w rest ih => exact (ih _).trans (store8_frame w.1 w.2 s).cpu

theorem loadRun_viaOnly (as : List Word) (s : State) : ViaOnly s (loadRun as s).2 := by
  induction as generalizing s with
  | nil => exact .refl s
  | cons a rest ih => exact (load8_viaOnly a s).trans (ih _)

-- Calls and the return.

theorem finish_callTo (i : Instr) (target : Word) (s : State) :
    finish i.opcode (callTo target s) =
      .next (completed i (storeRun [(s.cpu.sp, loByte s.cpu.pc), (s.cpu.sp - 1, hiByte s.cpu.pc)] s)
        { s.cpu with pc := target, sp := s.cpu.sp - 2 }) := by
  rw [callTo, push16_eq_storeRun, jumpTo, onCpu_onCpu, finish_onCpu, storeRun_cpu]

theorem finish_returnFromCall (i : Instr) (s : State) :
    let r := loadRun [s.cpu.sp + 1, s.cpu.sp + 2] s
    finish i.opcode (returnFromCall s) =
      .next (completed i r.2
        { s.cpu with pc := joinBytes (r.1.getD 0 0) (r.1.getD 1 0), sp := s.cpu.sp + 2 }) := by
  dsimp only
  rw [returnFromCall, pull16_eq_loadRun, jumpTo, onCpu_onCpu, finish_onCpu, (loadRun_viaOnly _ s).cpu]

/-- Settles O43: no clause asks who owns the two stack bytes. -/
theorem jumpsCallsAndReturn : Obligations.JumpsCallsAndReturn :=
  ⟨fun s =>
      ⟨fun m => ⟨finish_onCpu (.jmp m) _ s, finish_callTo (.jsr m) _ s⟩, fun rel => finish_callTo (.bsr rel) _ s,
        finish_returnFromCall .rts s⟩,
    fun _ _ => ⟨⟨rfl, rfl⟩, rfl, rfl⟩, fun _ _ => ⟨⟨rfl, rfl⟩, rfl, rfl⟩, fun _ => ⟨rfl, rfl⟩, rfl, rfl⟩

-- The return undoes the call.

/-- JSR and BSR: the same stores at the same two addresses, whatever the target (R238, R239). -/
theorem exec_call {i : Instr} (hi : (∃ m, i = .jsr m) ∨ ∃ rel, i = .bsr rel) (s : State) :
    storedAddresses i s = [s.cpu.sp, s.cpu.sp - 1] ∧
      ∃ target, exec i s =
        .next (completed i (storeRun [(s.cpu.sp, loByte s.cpu.pc), (s.cpu.sp - 1, hiByte s.cpu.pc)] s)
          { s.cpu with pc := target, sp := s.cpu.sp - 2 }) := by
  obtain ⟨m, rfl⟩ | ⟨rel, rfl⟩ := hi
  · exact ⟨rfl, _, finish_callTo (.jsr m) _ s⟩
  · exact ⟨rfl, _, finish_callTo (.bsr rel) _ s⟩

/-- Two bytes stored in RAM from `a` down, which wraps, lie there side by side. -/
theorem readByte_storeRun_down {s : State} {a : Word} (h : owner s a = .ram) (h' : owner s (a - 1) = .ram)
    (hmem : Memory.wf s.mem = true) (x y : Byte) :
    readByte (storeRun [(a, x), (a - 1, y)] s).mem a.toNat = x ∧
      readByte (storeRun [(a, x), (a - 1, y)] s).mem (a - 1).toNat = y := by
  have hne : a.toNat ≠ (a - 1).toNat := by bv_omega
  have howner : owner (store8 a x s) (a - 1) = .ram := (owner_store8 s a _ x).trans h'
  simp only [storeRun]
  constructor
  · rw [readByte_store8_ne _ hne, readByte_store8_self h hmem]
  · rw [readByte_store8_self howner (store8_memory_wf a x hmem)]

/-- RTS where the two bytes above SP are RAM: it reads memory alone. -/
theorem exec_rts_of_ram {u : State} (h : owner u (u.cpu.sp + 1) = .ram) (h' : owner u (u.cpu.sp + 2) = .ram) :
    exec .rts u =
      .next (completed .rts u
        { u.cpu with
          pc := joinBytes (readByte u.mem (u.cpu.sp + 1).toNat) (readByte u.mem (u.cpu.sp + 2).toNat)
          sp := u.cpu.sp + 2 }) := by
  have hreads : loadRun [u.cpu.sp + 1, u.cpu.sp + 2] u =
      ([readByte u.mem (u.cpu.sp + 1).toNat, readByte u.mem (u.cpu.sp + 2).toNat], u) := by
    simp only [loadRun, load8_memory (.inl h), load8_memory (.inl h')]
  refine (finish_returnFromCall .rts u).trans ?_
  rw [hreads]
  rfl

/-- Settles O44: RTS reads the two bytes that the call wrote, in the other order. -/
theorem returnComesBackFromACall : Obligations.ReturnComesBackFromACall := by
  intro s t u i hi hram hmem hexec hcfg husp hbytes
  have hlow : owner s s.cpu.sp = .ram := by simpa using hram 0 (by decide)
  have hhigh : owner s (s.cpu.sp - 1) = .ram := hram 1 (by decide)
  obtain ⟨haddresses, target, hcall⟩ := exec_call hi s
  obtain rfl := Host.Outcome.next.inj (hcall.symm.trans hexec)
  obtain ⟨hlowByte, hhighByte⟩ := readByte_storeRun_down hlow hhigh hmem (loByte s.cpu.pc) (hiByte s.cpu.pc)
  rw [haddresses, List.forall_mem_cons, List.forall_mem_singleton, completed_mem, hlowByte, hhighByte] at hbytes
  obtain ⟨hulow, huhigh⟩ := hbytes
  have hsp : u.cpu.sp = s.cpu.sp - 2 := husp
  have hsp1 : u.cpu.sp + 1 = s.cpu.sp - 1 := by rw [hsp]; bv_omega
  have hsp2 : u.cpu.sp + 2 = s.cpu.sp := by rw [hsp]; bv_omega
  have howner (a : Word) : owner u a = owner s a := by rw [owner, hcfg, owner]
  have hrts := exec_rts_of_ram (u := u) (by rw [howner, hsp1, hhigh]) (by rw [howner, hsp2, hlow])
  rw [hsp1, hsp2, hulow, huhigh, joinBytes_hiByte_loByte] at hrts
  exact ⟨_, hrts, rfl, rfl⟩

end Sys2Proof.Machine
end

section
/-! PROOF. Flag, system and no-op instructions (44_system R250 to R262): SWI writes the frame of an interrupt entry,
RTI reads it back in the other order, and neither run of accesses looks at the registers that change between them. -/

namespace Sys2Proof.Machine

-- Runs of accesses.

/-- A run of stores can do what its stores can. -/
theorem storeRun_frame (ws : List (Word × Byte)) (s : State) : StoreFrame s (storeRun ws s) (ws.map Prod.fst) := by
  induction ws generalizing s with
  | nil => exact (ViaOnly.refl s).storeFrame _
  | cons w rest ih => exact (store8_frame w.1 w.2 s).trans (ih _)

theorem load8_cpu (a : Word) (s : State) : (load8 a s).2.cpu = s.cpu := (load8_viaOnly a s).cpu

-- SWI.

/-- The seven pushes are the stores of the frame: none looks at SP, so SP can move after them (60_exceptions R404). -/
theorem pushAll_eq_storeRun (s : State) :
    pushAll s = onCpu (fun k => { k with sp := k.sp - 7 }) (storeRun (interruptFrame s.cpu) s) := by
  simp only [pushAll, push16, push8, onCpu_cpu, (store8_frame _ _ _).cpu, store8_onCpu, onCpu_onCpu, interruptFrame,
    storeRun, sub_sub, BitVec.reduceAdd, BitVec.ofNat_eq_ofNat]

/-- The push-and-vector sequence, of an interrupt and of SWI, in the terms of the statements (R258, R404). -/
theorem enterThroughVector_eq_entered (vec : Word) (n : Nat) (s : State) :
    enterThroughVector vec n s = entered vec n s := by
  have hframe := storeRun_frame (interruptFrame s.cpu) s
  have hvector := load16_viaOnly vec (storeRun (interruptFrame s.cpu) s)
  rw [enterThroughVector, pushAll_eq_storeRun, onCpu_onCpu, load16_onCpu, onCpu_onCpu, entered, onCpu, addCost]
  simp only [hvector.cpu, hvector.clock, hframe.cpu, hframe.clock]

theorem exec_swi (s : State) : exec .swi s = .next (entered s.cfg.vecSwi (cyclesOf s.cfg 0x3F) s) :=
  congrArg Host.Outcome.next (enterThroughVector_eq_entered s.cfg.vecSwi _ s)

-- RTI.

theorem setCcr_sp (v : Byte) (k : Cpu) : (Cpu.setCcr v k).sp = k.sp := rfl

/-- The seven pulls are seven reads upwards from SP+1: none looks at the registers written between them (R259). -/
theorem pullAll_eq_loadRun (s : State) :
    let r := loadRun (addressesFrom (s.cpu.sp + 1) 7) s
    let byte := fun k => r.1.getD k 0
    pullAll s =
      onCpu (fun k =>
        { Cpu.setCcr (byte 0) k with
          a := byte 2, b := byte 1, ix := joinBytes (byte 3) (byte 4), sp := k.sp + 7
          pc := joinBytes (byte 5) (byte 6) }) r.2 := by
  have hsp (w : Word) : w + 1 + 1 + 1 + 1 + 1 + 1 + 1 = w + 7 := by bv_omega
  simp only [pullAll, pull16, pull8_eq_load8, onCpu_cpu, load8_cpu, load8_onCpu, onCpu_onCpu, setCcr_sp,
    addressesFrom_succ, loadRun, List.getD_cons_zero, List.getD_cons_succ, hsp]
  rfl

/-- RTI from any state: no clause asks who owns the stack (R259). -/
theorem finish_pullAll (i : Instr) (s : State) :
    let r := loadRun (addressesFrom (s.cpu.sp + 1) 7) s
    let byte := fun k => r.1.getD k 0
    finish i.opcode (pullAll s) =
      .next (completed i r.2
        { Cpu.setCcr (byte 0) s.cpu with
          a := byte 2, b := byte 1, ix := joinBytes (byte 3) (byte 4), sp := s.cpu.sp + 7
          pc := joinBytes (byte 5) (byte 6) }) := by
  dsimp only
  rw [pullAll_eq_loadRun, finish_onCpu, (loadRun_viaOnly _ s).cpu]

/-- Settles O46: the frame is written and read back by the runs of accesses above; the two rows are by evaluation. -/
theorem softwareInterruptAndReturn : Obligations.SoftwareInterruptAndReturn := by
  refine ⟨fun s => ⟨exec_swi s, ?rti⟩, ⟨rfl, rfl⟩, rfl, rfl⟩
  have haddresses : ((List.range 7).map fun k => s.cpu.sp + BitVec.ofNat 16 (k + 1)) =
      addressesFrom (s.cpu.sp + 1) 7 := by simp only [addressesFrom, add_ofNat_succ]
  rw [haddresses]
  exact finish_pullAll .rti s

-- The flags and the no-ops.

/-- An instruction that leaves the CPU record alone completes with the one it found. -/
theorem finish_eq_completed (i : Instr) (s : State) : finish i.opcode s = .next (completed i s s.cpu) := rfl

/-- Settles O45: each instruction is one computation on the CPU record, NOP none. -/
theorem nopAndFlagInstructions : Obligations.NopAndFlagInstructions :=
  ⟨fun s =>
      ⟨finish_eq_completed .nop s, finish_onCpu .clc _ s, finish_onCpu .sec _ s, finish_onCpu .clv _ s,
        finish_onCpu .sev _ s, finish_onCpu .cli _ s, finish_onCpu .sei _ s⟩,
    ⟨rfl, rfl⟩, ⟨rfl, rfl⟩, ⟨rfl, rfl⟩, ⟨rfl, rfl⟩, ⟨rfl, rfl⟩, ⟨rfl, rfl⟩, rfl, rfl⟩

/-- Each of the 53 bytes of 30_encoding R110 has the cost 1 in the default table. -/
theorem cyclesOf_default_of_unrecognised : ∀ op ∈ unrecognisedOpcodes, cyclesOf defaultConfig op = 1 := by decide

/-- Settles O47: WAI writes its latch alone, and the no-op charges one clock without looking at the cost table. -/
theorem waitAndUnrecognised : Obligations.WaitAndUnrecognised :=
  ⟨fun _ s => ⟨finish_eq_completed .wai { s with req := { s.req with waitActive := true } }, rfl⟩, ⟨rfl, rfl⟩,
    fun op hop => ⟨rfl, cyclesOf_default_of_unrecognised op hop⟩⟩

end Sys2Proof.Machine
end

section
/-! PROOF. The interrupt line and the fields of the control registers, said once: what `updateIrq()` leaves
(46_via_registers R330), which changes of the VIA record it commutes with, and the fields of ACR and PCR as numbers
(10_state R39, R40). -/

namespace Sys2Proof.Machine

-- The interrupt line.

/-- `updateIrq()` in full: the line is the composite bit, and `irqPending` follows a line that moves (R330). -/
theorem updateIrq_eq_follow (s : State) :
    updateIrq s =
      { s with
        via := { s.via with irqLine := s.via.composite }
        req := { s.req with
          irqPending := if s.via.composite = s.via.irqLine then s.req.irqPending else s.via.composite } } := by
  unfold updateIrq
  by_cases h : s.via.composite = s.via.irqLine
  · simp [h]
  · simp [h, cpuIrq, mapVia]

/-- The VIA record changes in its flags and its line alone. -/
def IrqOnly (v w : Via) : Prop := w = { v with ifr := w.ifr, irqLine := w.irqLine }

namespace IrqOnly

variable {v w : Via}

theorem pcr (h : IrqOnly v w) : w.pcr = v.pcr := (congrArg Via.pcr h :)
theorem acr (h : IrqOnly v w) : w.acr = v.acr := (congrArg Via.acr h :)
theorem ca2Out (h : IrqOnly v w) : w.ca2Out = v.ca2Out := (congrArg Via.ca2Out h :)
theorem cb2Out (h : IrqOnly v w) : w.cb2Out = v.cb2Out := (congrArg Via.cb2Out h :)
theorem srActive (h : IrqOnly v w) : w.srActive = v.srActive := (congrArg Via.srActive h :)

end IrqOnly

theorem clearFlags_irqOnly (m : BitVec 7) (s : State) : IrqOnly s.via (clearFlags m s).via := by
  rw [clearFlags, updateIrq_via]
  rfl

theorem setFlag_irqOnly (src : IrqSource) (s : State) : IrqOnly s.via (setFlag src s).via := by
  rw [setFlag, updateIrq_via]
  rfl

/-- A function on the VIA record that neither reads nor writes the flags and the line, and keeps the enables. -/
structure ApartFromIrq (f : Via → Via) : Prop where
  setIfr : ∀ v flags, f { v with ifr := flags } = { f v with ifr := flags }
  setLine : ∀ v line, f { v with irqLine := line } = { f v with irqLine := line }
  ier : ∀ v, (f v).ier = v.ier

namespace ApartFromIrq

variable {f : Via → Via}

theorem ifr (h : ApartFromIrq f) (v : Via) : (f v).ifr = v.ifr := (congrArg Via.ifr (h.setIfr v v.ifr) :)

theorem irqLine (h : ApartFromIrq f) (v : Via) : (f v).irqLine = v.irqLine :=
  (congrArg Via.irqLine (h.setLine v v.irqLine) :)

theorem composite (h : ApartFromIrq f) (v : Via) : (f v).composite = v.composite := by
  rw [Via.composite, h.ifr, h.ier, Via.composite]

theorem updateIrq_mapVia (h : ApartFromIrq f) (s : State) : updateIrq (mapVia f s) = mapVia f (updateIrq s) := by
  rw [updateIrq_eq_follow, updateIrq_eq_follow, mapVia_via, h.composite, h.irqLine, ← h.setLine]
  rfl

/-- Clearing flags commutes with a change elsewhere in the record. -/
theorem clearFlags_mapVia (h : ApartFromIrq f) (m : BitVec 7) (s : State) :
    clearFlags m (mapVia f s) = mapVia f (clearFlags m s) := by
  have hclear (v : Via) : { f v with ifr := (f v).ifr &&& ~~~m } = f { v with ifr := v.ifr &&& ~~~m } := by
    rw [h.ifr v]
    exact (h.setIfr v _).symm
  rw [clearFlags, clearFlags, ← h.updateIrq_mapVia, mapVia_mapVia, mapVia_mapVia, funext hclear]

end ApartFromIrq

-- The fields of PCR and ACR.

/-- The value of a `C?2_MODE` field as a number (10_state R40). -/
def C2Mode.number : C2Mode → Nat
  | .inputFalling => 0
  | .independentFalling => 1
  | .inputRising => 2
  | .independentRising => 3
  | .handshake => 4
  | .pulse => 5
  | .manualLow => 6
  | .manualHigh => 7

theorem c2ModeOfBits_number : ∀ b : BitVec 3, (c2ModeOfBits b).number = b.toNat := by decide

theorem ca2Mode_number (pcr : Byte) : (ca2Mode pcr).number = pcr.toNat / 2 % 8 := by
  rw [ca2Mode, c2ModeOfBits_number, BitVec.extractLsb'_toNat, Nat.shiftRight_eq_div_pow]

theorem cb2Mode_number (pcr : Byte) : (cb2Mode pcr).number = pcr.toNat / 32 := by
  rw [cb2Mode, c2ModeOfBits_number, BitVec.extractLsb'_toNat, Nat.shiftRight_eq_div_pow]
  have hlt := pcr.isLt
  omega

theorem srModeBits_toNat (acr : Byte) : (srModeBits acr).toNat = acr.toNat / 4 % 8 := by
  rw [srModeBits, BitVec.extractLsb'_toNat, Nat.shiftRight_eq_div_pow]

theorem c2Independent_eq (m : C2Mode) : c2Independent m = decide (m.number = 1 ∨ m.number = 3) := by
  cases m <;> decide

-- The handshake helpers (R335).

theorem portAFlags_eq (s : State) :
    portAFlags s =
      clearFlags
        (if s.via.pcr.toNat / 2 % 8 = 1 ∨ s.via.pcr.toNat / 2 % 8 = 3 then 0b0000010 else 0b0000011) s := by
  rw [portAFlags, c2Independent_eq, ca2Mode_number]
  by_cases h : s.via.pcr.toNat / 2 % 8 = 1 ∨ s.via.pcr.toNat / 2 % 8 = 3 <;> simp [h, sourceMask]

theorem portBFlags_eq (s : State) :
    portBFlags s =
      clearFlags (if s.via.pcr.toNat / 32 = 1 ∨ s.via.pcr.toNat / 32 = 3 then 0b0010000 else 0b0011000) s := by
  rw [portBFlags, c2Independent_eq, cb2Mode_number]
  by_cases h : s.via.pcr.toNat / 32 = 1 ∨ s.via.pcr.toNat / 32 = 3 <;> simp [h, sourceMask]

/-- `handshakeA()` by the number of its mode: low in modes 4 and 5, and a pulse in mode 5. -/
theorem handshakeA_eq (v : Via) :
    handshakeA v =
      { v with
        ca2Out := v.ca2Out && v.pcr.toNat / 2 % 8 != 4 && v.pcr.toNat / 2 % 8 != 5
        ca2Pulse := v.ca2Pulse || v.pcr.toNat / 2 % 8 == 5 } := by
  unfold handshakeA
  rw [← ca2Mode_number]
  cases ca2Mode v.pcr <;> simp [C2Mode.number]

theorem handshakeB_eq (v : Via) :
    handshakeB v =
      { v with
        cb2Out := v.cb2Out && v.pcr.toNat / 32 != 4 && v.pcr.toNat / 32 != 5
        cb2Pulse := v.cb2Pulse || v.pcr.toNat / 32 == 5 } := by
  unfold handshakeB
  rw [← cb2Mode_number]
  cases cb2Mode v.pcr <;> simp [C2Mode.number]

-- Accesses by register number.

/-- A VIA register read by its number (R300, R301). -/
theorem load8_register {s : State} {a : Word} {n : Nat} (reg : ViaReg) (hvia : owner s a = .via)
    (hn : a.toNat % 16 = n) (hreg : viaRegOf (BitVec.ofNat 16 n) = reg) :
    load8 a s = (viaReadValue s.cfg.ierReadBit7 reg s.via, viaReadEffect reg s) := by
  have hmod : (BitVec.ofNat 16 n).toNat % 16 = a.toNat % 16 := by rw [BitVec.toNat_ofNat]; omega
  rw [load8_via hvia, ← viaRegOf_congr hmod, hreg, viaRead]

/-- A VIA register written by its number (R300, R301). -/
theorem store8_register {s : State} {a : Word} {n : Nat} (reg : ViaReg) (hvia : owner s a = .via)
    (hn : a.toNat % 16 = n) (hreg : viaRegOf (BitVec.ofNat 16 n) = reg) (d : Byte) :
    store8 a d s = viaWrite reg d s := by
  have hmod : (BitVec.ofNat 16 n).toNat % 16 = a.toNat % 16 := by rw [BitVec.toNat_ofNat]; omega
  rw [store8_via hvia, ← viaRegOf_congr hmod, hreg]

end Sys2Proof.Machine
end

section
/-! PROOF. The port and direction registers (46_via_registers R303 to R308, R332, R333, R335): the ports bit by bit, and
the accesses with their flags and handshakes. -/

namespace Sys2Proof.Machine

-- The ports bit by bit (R303, R305, 10_state R35).

theorem muxBits_getLsbD (sel x y : Byte) {i : Nat} (hi : i < 8) :
    (muxBits sel x y).getLsbD i = if sel.getLsbD i then x.getLsbD i else y.getLsbD i := by
  rw [muxBits, BitVec.getLsbD_or, BitVec.getLsbD_and, BitVec.getLsbD_and, BitVec.getLsbD_not]
  cases sel.getLsbD i <;> simp [hi]

/-- The mask of bit 7, in the spelling of `simp`. -/
theorem getLsbD_bit_seven : ∀ i < 8, (0x80#8).getLsbD i = decide (i = 7) := by decide

theorem getLsbD_all_but_bit_seven : ∀ i < 8, (0x7F#8).getLsbD i = !decide (i = 7) := by decide

theorem outputB_getLsbD (v : Via) {i : Nat} (hi : i < 8) :
    v.outputB.getLsbD i = (v.ddrb.getLsbD i || (decide (i = 7) && v.acr.getLsbD 7)) := by
  unfold Via.outputB t1Pb7En
  cases v.acr.getLsbD 7
  · simp
  · simp [getLsbD_bit_seven i hi]

/-- Bit 7 is `T1_PB7` under `ACR[7]`; any other bit is that of ORB where it is an output. -/
theorem pbOut_getLsbD (v : Via) {i : Nat} (hi : i < 8) :
    v.pbOut.getLsbD i =
      if i = 7 ∧ v.acr.getLsbD 7 then v.t1Pb7 else v.orb.getLsbD i && v.ddrb.getLsbD i := by
  unfold Via.pbOut t1Pb7En
  cases v.acr.getLsbD 7
  · simp
  · by_cases h7 : i = 7 <;> cases v.t1Pb7 <;>
      simp [getLsbD_all_but_bit_seven i hi, getLsbD_bit_seven i hi, h7]

/-- A driven bit of port B does not look at DDRB, and one of an input is that of the input levels given. -/
theorem muxBits_portB_getLsbD (v : Via) (inputs : Byte) {i : Nat} (hi : i < 8) :
    (muxBits v.outputB v.pbOut inputs).getLsbD i =
      if v.ddrb.getLsbD i || (decide (i = 7) && v.acr.getLsbD 7) then
        if i = 7 ∧ v.acr.getLsbD 7 then v.t1Pb7 else v.orb.getLsbD i
      else inputs.getLsbD i := by
  rw [muxBits_getLsbD _ _ _ hi, outputB_getLsbD _ hi, pbOut_getLsbD _ hi]
  split
  · next hout =>
    split
    · rfl
    · next h7 =>
      have hddrb : v.ddrb.getLsbD i = true := by
        rw [Bool.or_eq_true, Bool.and_eq_true, decide_eq_true_eq] at hout
        exact hout.resolve_right h7
      rw [hddrb, Bool.and_true]
  · rfl

theorem readPortB_getLsbD (v : Via) {i : Nat} (hi : i < 8) :
    v.readPortB.getLsbD i =
      if v.ddrb.getLsbD i || (decide (i = 7) && v.acr.getLsbD 7) then
        if i = 7 ∧ v.acr.getLsbD 7 then v.t1Pb7 else v.orb.getLsbD i
      else if v.acr.getLsbD 1 then v.irb.getLsbD i else v.pbIn.getLsbD i := by
  rw [Via.readPortB, muxBits_portB_getLsbD _ _ hi, pbLatch, apply_ite (BitVec.getLsbD · i)]

theorem readPortA_getLsbD (v : Via) {i : Nat} (hi : i < 8) :
    v.readPortA.getLsbD i =
      if v.ddra.getLsbD i then v.ora.getLsbD i
      else if v.acr.getLsbD 0 then v.ira.getLsbD i else v.paIn.getLsbD i := by
  rw [Via.readPortA, muxBits_getLsbD _ _ _ hi, paLatch, apply_ite (BitVec.getLsbD · i)]

-- The handshakes after the flags.

/-- Clearing flags keeps the PCR, so the handshake of port A is driven by the mode from before it. -/
theorem handshakeA_clearFlags (m : BitVec 7) (s : State) :
    mapVia handshakeA (clearFlags m s) =
      mapVia (fun w =>
        { w with
          ca2Out := w.ca2Out && s.via.pcr.toNat / 2 % 8 != 4 && s.via.pcr.toNat / 2 % 8 != 5
          ca2Pulse := w.ca2Pulse || s.via.pcr.toNat / 2 % 8 == 5 }) (clearFlags m s) := by
  rw [← (clearFlags_irqOnly m s).pcr, mapVia, handshakeA_eq]
  rfl

theorem handshakeB_clearFlags (m : BitVec 7) (s : State) :
    mapVia handshakeB (clearFlags m s) =
      mapVia (fun w =>
        { w with
          cb2Out := w.cb2Out && s.via.pcr.toNat / 32 != 4 && s.via.pcr.toNat / 32 != 5
          cb2Pulse := w.cb2Pulse || s.via.pcr.toNat / 32 == 5 }) (clearFlags m s) := by
  rw [← (clearFlags_irqOnly m s).pcr, mapVia, handshakeB_eq]
  rfl

/-- Settles O48, one clause for each register number: the value bit by bit, then the flags, then the handshake. -/
theorem portRegisters : Obligations.PortRegisters := by
  intro s a d hvia
  refine ⟨fun hn => ?orb, fun hn => ?ora, fun hn => ?oraNoHandshake, fun hn => ?ddrb, fun hn => ?ddra⟩
  case orb =>
    rw [load8_register .orb hvia hn rfl, store8_register .orb hvia hn rfl]
    refine ⟨fun i hi => readPortB_getLsbD s.via hi, portBFlags_eq s, ?_⟩
    rw [viaWrite, portBFlags_eq, handshakeB_clearFlags]
    rfl
  case ora =>
    rw [load8_register .ora hvia hn rfl, store8_register .ora hvia hn rfl]
    refine ⟨fun i hi => readPortA_getLsbD s.via hi, ?_, ?_⟩
    · rw [viaReadEffect, portAFlags_eq, handshakeA_clearFlags]
    · rw [viaWrite, portAFlags_eq, handshakeA_clearFlags]
      rfl
  case oraNoHandshake =>
    rw [load8_register .oraNoHandshake hvia hn rfl, store8_register .oraNoHandshake hvia hn rfl]
    exact ⟨fun i hi => readPortA_getLsbD s.via hi, rfl, rfl⟩
  case ddrb => exact ⟨load8_register .ddrb hvia hn rfl, store8_register .ddrb hvia hn rfl d⟩
  case ddra => exact ⟨load8_register .ddra hvia hn rfl, store8_register .ddra hvia hn rfl d⟩

end Sys2Proof.Machine
end

section
/-! PROOF. The timer registers (46_via_registers R309 to R319): the halves of a counter or latch as numbers, and the loads,
which commute with the clearing of the timer's flag. -/

namespace Sys2Proof.Machine

/-- A word with its low half replaced (R310, R313, R317). -/
theorem joinBytes_hiByte_eq_ofNat (l : Word) (d : Byte) :
    joinBytes (hiByte l) d = BitVec.ofNat 16 (l.toNat / 256 * 256 + d.toNat) := by
  apply BitVec.eq_of_toNat_eq
  rw [joinBytes_toNat, hiByte_eq_ofNat, BitVec.toNat_ofNat, BitVec.toNat_ofNat]
  omega

/-- A word with its high half replaced (R312, R315, R319). -/
theorem joinBytes_loByte_eq_ofNat (l : Word) (d : Byte) :
    joinBytes d (loByte l) = BitVec.ofNat 16 (d.toNat * 256 + l.toNat % 256) := by
  apply BitVec.eq_of_toNat_eq
  rw [joinBytes_toNat, loByte_eq_ofNat, BitVec.toNat_ofNat, BitVec.toNat_ofNat]
  omega

/-- Loading and arming timer 1 with PB7 forced low under `ACR[7]`: one change, apart from the flags (R312). -/
theorem writeT1CounterHigh_eq (d : Byte) (s : State) :
    writeT1CounterHigh d s =
      clearFlags 0b1000000 (mapVia (fun w =>
        { w with
          t1l := joinBytes d (loByte w.t1l), t1c := joinBytes d (loByte w.t1l)
          t1Armed := true, t1JustLoaded := true
          t1Pb7 := w.t1Pb7 && !w.acr.getLsbD 7 }) s) := by
  have hforce (v : Via) :
      (if t1Pb7En v.acr then { v with t1Pb7 := false } else v) =
        { v with t1Pb7 := v.t1Pb7 && !v.acr.getLsbD 7 } := by
    unfold t1Pb7En
    cases v.acr.getLsbD 7
    · simp
    · simp
  have hapart : ApartFromIrq fun v => { v with t1Pb7 := v.t1Pb7 && !v.acr.getLsbD 7 } :=
    ⟨fun _ _ => rfl, fun _ _ => rfl, fun _ => rfl⟩
  rw [writeT1CounterHigh]
  simp only [hforce]
  rw [← hapart.clearFlags_mapVia]
  rfl

/-- Loading timer 2 and arming it, or disarming it in pulse mode: one change, apart from the flags (R319). -/
theorem writeT2CounterHigh_eq (d : Byte) (s : State) :
    writeT2CounterHigh d s =
      clearFlags 0b0100000 (mapVia (fun w =>
        { w with
          t2l := joinBytes d (loByte w.t2l), t2c := joinBytes d (loByte w.t2l)
          t2Armed := !w.acr.getLsbD 5, t2JustLoaded := !w.acr.getLsbD 5 }) s) := by
  have hapart : ApartFromIrq fun v => { v with t2Armed := !t2Pulse v.acr, t2JustLoaded := !t2Pulse v.acr } :=
    ⟨fun _ _ => rfl, fun _ _ => rfl, fun _ => rfl⟩
  rw [writeT2CounterHigh]
  dsimp only
  rw [← hapart.clearFlags_mapVia]
  rfl

theorem writeT2LatchLow_eq (d : Byte) (v : Via) :
    writeT2LatchLow d v =
      { v with t2l := joinBytes (hiByte v.t2l) d, t2Armed := v.t2Armed && !v.acr.getLsbD 5 } := by
  unfold writeT2LatchLow t2Pulse
  cases v.acr.getLsbD 5
  · simp
  · simp

/-- Settles O49, one clause for each register number, with the halves of each word by number. -/
theorem timerRegisters : Obligations.TimerRegisters := by
  intro s a d hvia
  simp only [← joinBytes_hiByte_eq_ofNat, ← joinBytes_loByte_eq_ofNat, ← hiByte_eq_ofNat, ← loByte_eq_ofNat]
  refine ⟨fun hn => ?t1cl, fun hn => ?t1ch, fun hn => ?t1ll, fun hn => ?t1lh, fun hn => ?t2cl, fun hn => ?t2ch⟩
  case t1cl => exact ⟨load8_register .t1cl hvia hn rfl, store8_register .t1cl hvia hn rfl d⟩
  case t1ch =>
    exact ⟨load8_register .t1ch hvia hn rfl,
      (store8_register .t1ch hvia hn rfl d).trans (writeT1CounterHigh_eq d s)⟩
  case t1ll => exact ⟨load8_register .t1ll hvia hn rfl, store8_register .t1ll hvia hn rfl d⟩
  case t1lh => exact ⟨load8_register .t1lh hvia hn rfl, store8_register .t1lh hvia hn rfl d⟩
  case t2cl =>
    refine ⟨load8_register .t2cl hvia hn rfl, (store8_register .t2cl hvia hn rfl d).trans ?_⟩
    rw [viaWrite, funext (writeT2LatchLow_eq d)]
  case t2ch =>
    exact ⟨load8_register .t2ch hvia hn rfl,
      (store8_register .t2ch hvia hn rfl d).trans (writeT2CounterHigh_eq d s)⟩

end Sys2Proof.Machine
end

section
/-! PROOF. The shift register, ACR and PCR as registers (46_via_registers R320 to R325, 47_via_tick R354), by the numbers of
the mode fields. -/

namespace Sys2Proof.Machine

/-- Two fields of three bits are equal when their numbers are. -/
theorem srModeBits_eq_iff (x y : Byte) : srModeBits x = srModeBits y ↔ x.toNat / 4 % 8 = y.toNat / 4 % 8 := by
  rw [← BitVec.toNat_inj, srModeBits_toNat, srModeBits_toNat]

theorem srArm_eq (v : Via) :
    srArm v = { v with srCount := 0, srPhase := .notify, srActive := decide (v.acr.toNat / 4 % 8 ≠ 0) } := by
  have hactive : (srModeBits v.acr != 0) = decide (v.acr.toNat / 4 % 8 ≠ 0) := by
    rw [← srModeBits_toNat, Bool.eq_iff_iff, bne_iff_ne, decide_eq_true_eq]
    exact BitVec.toNat_ne_iff_ne.symm
  rw [srArm, hactive]

/-- Clearing flags keeps the ACR, so the mode is that from before it. -/
theorem srArm_clearFlags (m : BitVec 7) (s : State) :
    mapVia srArm (clearFlags m s) =
      mapVia (fun w =>
        { w with srCount := 0, srPhase := .notify, srActive := decide (s.via.acr.toNat / 4 % 8 ≠ 0) })
        (clearFlags m s) := by
  rw [← (clearFlags_irqOnly m s).acr, mapVia, srArm_eq]
  rfl

theorem mapVia_writeAcr (d : Byte) (s : State) :
    mapVia (writeAcr d) s =
      if d.toNat / 4 % 8 = s.via.acr.toNat / 4 % 8 then mapVia (fun w => { w with acr := d }) s
      else mapVia (fun w =>
        { w with acr := d, srCount := 0, srPhase := .notify, srActive := decide (d.toNat / 4 % 8 ≠ 0) }) s := by
  by_cases h : d.toNat / 4 % 8 = s.via.acr.toNat / 4 % 8
  · have hsame : (srModeBits d != srModeBits s.via.acr) = false := bne_eq_false_iff_eq.mpr ((srModeBits_eq_iff ..).mpr h)
    rw [if_pos h, mapVia, writeAcr, hsame]
    rfl
  · have hchanged : (srModeBits d != srModeBits s.via.acr) = true := bne_iff_ne.mpr (mt (srModeBits_eq_iff ..).mp h)
    rw [if_neg h, mapVia, writeAcr, hchanged, srArm_eq]
    rfl

/-- A new CA2 mode: an output is high in modes 4, 5 and 7 and low in mode 6, and no pulse runs on in 4 and 5 (R325). -/
theorem pcrSideA_eq (v : Via) :
    pcrSideA v =
      { v with
        ca2Out := if v.pcr.toNat / 2 % 8 < 4 then v.ca2Out else decide (v.pcr.toNat / 2 % 8 ≠ 6)
        ca2Pulse := v.ca2Pulse && v.pcr.toNat / 2 % 8 != 4 && v.pcr.toNat / 2 % 8 != 5 } := by
  unfold pcrSideA
  rw [← ca2Mode_number]
  cases ca2Mode v.pcr <;> simp [C2Mode.number]

theorem pcrSideB_eq (v : Via) :
    pcrSideB v =
      { v with
        cb2Out := if v.pcr.toNat / 32 < 4 then v.cb2Out else decide (v.pcr.toNat / 32 ≠ 6)
        cb2Pulse := v.cb2Pulse && v.pcr.toNat / 32 != 4 && v.pcr.toNat / 32 != 5 } := by
  unfold pcrSideB
  rw [← cb2Mode_number]
  cases cb2Mode v.pcr <;> simp [C2Mode.number]

/-- Settles O50, one clause for each register number. -/
theorem shiftAndControlRegisters : Obligations.ShiftAndControlRegisters := by
  intro s a d hvia
  refine ⟨fun hn => ?sr, fun hn => ?acr, fun hn => ?pcr⟩
  case sr =>
    rw [load8_register .sr hvia hn rfl, store8_register .sr hvia hn rfl]
    exact ⟨congrArg (Prod.mk s.via.sr) (srArm_clearFlags _ s), srArm_clearFlags _ _⟩
  case acr =>
    exact ⟨load8_register .acr hvia hn rfl, (store8_register .acr hvia hn rfl d).trans (mapVia_writeAcr d s)⟩
  case pcr =>
    refine ⟨load8_register .pcr hvia hn rfl, (store8_register .pcr hvia hn rfl d).trans ?_⟩
    simp only [viaWrite, pcrSideA_eq, pcrSideB_eq]

end Sys2Proof.Machine
end

section
/-! PROOF. The interrupt flag and enable registers (46_via_registers R326 to R330): the composite bit and the two registers
bit by bit, and the line after a write. -/

namespace Sys2Proof.Machine

/-- The composite bit: some source is flagged and enabled (10_state R41). -/
theorem composite_eq_decide (v : Via) :
    v.composite = decide (∃ i : Fin 7, v.ifr.getLsbD i = true ∧ v.ier.getLsbD i = true) := by
  rw [Via.composite, Bool.eq_iff_iff, bne_iff_ne, decide_eq_true_eq, ne_eq, BitVec.eq_of_getLsbD_eq_iff]
  simp only [not_forall, BitVec.getLsbD_and, BitVec.ofNat_eq_ofNat, BitVec.getLsbD_zero, Bool.not_eq_false,
    Bool.and_eq_true, Fin.exists_iff, exists_prop]

/-- The seven bits of IFR or IER below a bit 7 of another meaning (R326, R329). -/
theorem getLsbD_ofBool_append (b : Bool) (x : BitVec 7) :
    (BitVec.ofBool b ++ x).getLsbD 7 = b ∧ ∀ i < 7, (BitVec.ofBool b ++ x).getLsbD i = x.getLsbD i := by
  refine ⟨?_, fun i hi => ?_⟩
  · rw [BitVec.getLsbD_append, if_neg (by decide)]
    exact BitVec.getLsbD_ofBool b 0
  · rw [BitVec.getLsbD_append, if_pos hi]

theorem getLsbD_extractLsb'_seven (d : Byte) {i : Nat} (hi : i < 7) : (d.extractLsb' 0 7).getLsbD i = d.getLsbD i := by
  rw [BitVec.getLsbD_extractLsb', decide_eq_true hi, Bool.true_and, Nat.zero_add]

/-- The mask of R328, bit by bit, leaves the flags that are named neither by their bit nor, under bit 7, by being enabled. -/
theorem writeIfr_ifr_getLsbD (d : Byte) (s : State) {i : Nat} (hi : i < 7) :
    (writeIfr d s).via.ifr.getLsbD i =
      (s.via.ifr.getLsbD i && !(d.getLsbD i || (d.getLsbD 7 && s.via.ier.getLsbD i))) := by
  rw [writeIfr, clearFlags, updateIrq_via, mapVia_via, BitVec.getLsbD_and, BitVec.getLsbD_not, decide_eq_true hi,
    Bool.true_and]
  cases d.getLsbD 7
  · simp [getLsbD_extractLsb'_seven d hi]
  · cases hifr : s.via.ifr.getLsbD i <;> simp [getLsbD_extractLsb'_seven d hi, hifr]

theorem writeIer_ier_getLsbD (d : Byte) (s : State) {i : Nat} (hi : i < 7) :
    (writeIer d s).via.ier.getLsbD i = if d.getLsbD i then d.getLsbD 7 else s.via.ier.getLsbD i := by
  rw [writeIer, updateIrq_via, mapVia_via]
  cases d.getLsbD 7
  · cases hd : d.getLsbD i <;> simp [hd, hi]
  · cases hd : d.getLsbD i <;> simp [getLsbD_extractLsb'_seven d hi, hd]

/-- What a write of IFR or IER leaves: the line is the composite bit, and `irqPending` follows it when it moves. -/
structure IrqFollows (s t : State) : Prop where
  line : t.via.irqLine = t.via.composite
  pending :
    t = { s with
      via := t.via
      req := { s.req with
        irqPending := if t.via.composite = s.via.irqLine then s.req.irqPending else t.via.composite } }

theorem updateIrq_mapVia_irqFollows {f : Via → Via} {s : State} (h : (f s.via).irqLine = s.via.irqLine) :
    IrqFollows s (updateIrq (mapVia f s)) := by
  rw [updateIrq_eq_follow, mapVia_via, h]
  exact ⟨rfl, rfl⟩

theorem writeIfr_irqFollows (d : Byte) (s : State) : IrqFollows s (writeIfr d s) := updateIrq_mapVia_irqFollows rfl

theorem writeIer_irqFollows (d : Byte) (s : State) : IrqFollows s (writeIer d s) := updateIrq_mapVia_irqFollows rfl

theorem writeIer_via (d : Byte) (s : State) :
    (writeIer d s).via =
      { s.via with ier := (writeIer d s).via.ier, irqLine := (writeIer d s).via.irqLine } := by
  rw [writeIer, updateIrq_via]
  rfl

/-- Settles O51: the registers bit by bit, and the line as the composite bit. -/
theorem interruptRegisters : Obligations.InterruptRegisters := by
  intro s a d hvia
  simp only [← composite_eq_decide]
  refine ⟨fun hn => ?ifr, fun hn => ?ier, fun hn => ?follows⟩
  case ifr =>
    rw [load8_register .ifr hvia hn rfl, store8_register .ifr hvia hn rfl]
    obtain ⟨hseven, hlow⟩ := getLsbD_ofBool_append s.via.irqLine s.via.ifr
    refine ⟨hseven, hlow, rfl, fun i hi => writeIfr_ifr_getLsbD d s hi, ?_⟩
    rw [viaWrite, ← (writeIfr_irqFollows d s).line]
    exact clearFlags_irqOnly _ s
  case ier =>
    rw [load8_register .ier hvia hn rfl, store8_register .ier hvia hn rfl]
    obtain ⟨hseven, hlow⟩ := getLsbD_ofBool_append s.cfg.ierReadBit7 s.via.ier
    refine ⟨hseven, hlow, rfl, fun i hi => writeIer_ier_getLsbD d s hi, ?_⟩
    rw [viaWrite, ← (writeIer_irqFollows d s).line]
    exact writeIer_via d s
  case follows =>
    rcases hn with hn | hn
    · rw [store8_register .ifr hvia hn rfl]
      exact (writeIfr_irqFollows d s).pending
    · rw [store8_register .ier hvia hn rfl]
      exact (writeIer_irqFollows d s).pending

end Sys2Proof.Machine
end

section
/-! PROOF. The control-line inputs (46_via_registers R331): each event by the edge it is, and nothing at the same level. -/

namespace Sys2Proof.Machine

-- Edges.

theorem activeEdge_eq_true_iff {polarity old new : Bool} :
    activeEdge polarity old new = true ↔ old ≠ new ∧ new = polarity := by
  rw [activeEdge, Bool.and_eq_true, bne_iff_ne, beq_iff_eq]

theorem activeEdge_same (polarity level : Bool) : activeEdge polarity level level = false := by
  rw [activeEdge, bne_self_eq_false, Bool.false_and]

-- CA1 and CB1: the edge latches the port, raises the flag and ends a handshake.

theorem latchPortA_eq (v : Via) :
    (if paLatch v.acr then { v with ira := v.paIn } else v) =
      { v with ira := if v.acr.getLsbD 0 then v.paIn else v.ira } := by
  unfold paLatch
  cases v.acr.getLsbD 0 <;> rfl

theorem latchPortB_eq (v : Via) :
    (if pbLatch v.acr then { v with irb := v.pbIn } else v) =
      { v with irb := if v.acr.getLsbD 1 then v.pbIn else v.irb } := by
  unfold pbLatch
  cases v.acr.getLsbD 1 <;> rfl

theorem endHandshakeA_eq (v : Via) :
    (if ca2Mode v.pcr = .handshake then { v with ca2Out := true } else v) =
      { v with ca2Out := v.ca2Out || v.pcr.toNat / 2 % 8 == 4 } := by
  rw [← ca2Mode_number]
  cases ca2Mode v.pcr <;> simp [C2Mode.number]

theorem endHandshakeB_eq (v : Via) :
    (if cb2Mode v.pcr = .handshake then { v with cb2Out := true } else v) =
      { v with cb2Out := v.cb2Out || v.pcr.toNat / 32 == 4 } := by
  rw [← cb2Mode_number]
  cases cb2Mode v.pcr <;> simp [C2Mode.number]

/-- The flag raised before the end of a handshake keeps the PCR, and so the mode. -/
theorem endHandshakeA_setFlag (src : IrqSource) (s : State) :
    mapVia (fun v => if ca2Mode v.pcr = .handshake then { v with ca2Out := true } else v) (setFlag src s) =
      mapVia (fun w => { w with ca2Out := w.ca2Out || s.via.pcr.toNat / 2 % 8 == 4 }) (setFlag src s) := by
  rw [← (setFlag_irqOnly src s).pcr, mapVia, endHandshakeA_eq]
  rfl

theorem endHandshakeB_setFlag (src : IrqSource) (s : State) :
    mapVia (fun v => if cb2Mode v.pcr = .handshake then { v with cb2Out := true } else v) (setFlag src s) =
      mapVia (fun w => { w with cb2Out := w.cb2Out || s.via.pcr.toNat / 32 == 4 }) (setFlag src s) := by
  rw [← (setFlag_irqOnly src s).pcr, mapVia, endHandshakeB_eq]
  rfl

theorem setCA1_eq (level : Bool) (s : State) :
    let active := activeEdge (s.via.pcr.getLsbD 0) s.via.ca1In level
    let moved := mapVia (fun w =>
      { w with ca1In := level, ira := if active && s.via.acr.getLsbD 0 then s.via.paIn else s.via.ira }) s
    setCA1 level s =
      if active then
        mapVia (fun w => { w with ca2Out := w.ca2Out || s.via.pcr.toNat / 2 % 8 == 4 }) (setFlag .ca1 moved)
      else moved := by
  unfold setCA1
  dsimp only
  cases activeEdge (s.via.pcr.getLsbD 0) s.via.ca1In level
  case false => rfl
  case true =>
    rw [endHandshakeA_setFlag, funext latchPortA_eq]
    rfl

/-- What a change of CB1 does before it clocks the shift register. -/
def edgeCB1 (level : Bool) (s : State) : State :=
  let active := activeEdge (s.via.pcr.getLsbD 4) s.via.cb1In level
  let moved := mapVia (fun w =>
    { w with cb1In := level, irb := if active && s.via.acr.getLsbD 1 then s.via.pbIn else s.via.irb }) s
  if active then
    mapVia (fun w => { w with cb2Out := w.cb2Out || s.via.pcr.toNat / 32 == 4 }) (setFlag .cb1 moved)
  else moved

theorem edgeCB1_acr (level : Bool) (s : State) : (edgeCB1 level s).via.acr = s.via.acr := by
  unfold edgeCB1
  dsimp only
  split
  · exact (setFlag_irqOnly .cb1 _).acr
  · rfl

/-- The modes 0b011 and 0b111 are those that CB1 clocks (R350, R353). -/
theorem srClockOf_beq_cb1 : ∀ mode : BitVec 3,
    (srClockOf mode == .cb1) = decide (mode.toNat = 3 ∨ mode.toNat = 7) := by decide

theorem setCB1_eq (level : Bool) (s : State) :
    setCB1 level s =
      if s.via.cb1In ≠ level ∧ (s.via.acr.toNat / 4 % 8 = 3 ∨ s.via.acr.toNat / 4 % 8 = 7) then
        srStep (edgeCB1 level s)
      else edgeCB1 level s := by
  have hclock : setCB1 level s =
      if s.via.cb1In != level && srClockOf (srModeBits (edgeCB1 level s).via.acr) == .cb1 then
        srStep (edgeCB1 level s)
      else edgeCB1 level s := by
    unfold setCB1 edgeCB1
    dsimp only
    cases activeEdge (s.via.pcr.getLsbD 4) s.via.cb1In level
    case false => rfl
    case true =>
      rw [endHandshakeB_setFlag, funext latchPortB_eq]
      rfl
  rw [hclock, edgeCB1_acr, srClockOf_beq_cb1, srModeBits_toNat]
  simp only [Bool.and_eq_true, bne_iff_ne, decide_eq_true_eq]

-- CA2 and CB2: the input modes alone count an edge.

theorem setCA2_eq (level : Bool) (s : State) :
    setCA2 level s =
      if s.via.pcr.getLsbD 3 = false ∧ s.via.ca2In ≠ level ∧ level = s.via.pcr.getLsbD 2 then
        setFlag .ca2 (mapVia (fun w => { w with ca2In := level }) s)
      else mapVia (fun w => { w with ca2In := level }) s := by
  unfold setCA2
  simp only [Bool.and_eq_true, Bool.not_eq_true', activeEdge_eq_true_iff]

theorem setCB2_eq (level : Bool) (s : State) :
    setCB2 level s =
      if s.via.pcr.getLsbD 7 = false ∧ s.via.cb2In ≠ level ∧ level = s.via.pcr.getLsbD 6 then
        setFlag .cb2 (mapVia (fun w => { w with cb2In := level }) s)
      else mapVia (fun w => { w with cb2In := level }) s := by
  unfold setCB2
  simp only [Bool.and_eq_true, Bool.not_eq_true', activeEdge_eq_true_iff]

-- The same level.

theorem setCA1_same (s : State) : setCA1 s.via.ca1In s = s := by
  rw [setCA1, activeEdge_same]
  rfl

theorem setCA2_same (s : State) : setCA2 s.via.ca2In s = s := by
  rw [setCA2, activeEdge_same, Bool.and_false]
  rfl

theorem setCB1_same (s : State) : setCB1 s.via.cb1In s = s := by
  rw [setCB1, activeEdge_same, bne_self_eq_false, Bool.false_and]
  rfl

theorem setCB2_same (s : State) : setCB2 s.via.cb2In s = s := by
  rw [setCB2, activeEdge_same, Bool.and_false]
  rfl

/-- Settles O58: the four events by their edges, and each at the level the line has. -/
theorem controlLineEvents : Obligations.ControlLineEvents := by
  intro level s
  refine ⟨setCA1_eq level s, setCA2_eq level s, setCB1_eq level s, setCB2_eq level s, ?_, ?_, ?_, ?_⟩
  · rintro rfl
    exact setCA1_same s
  · rintro rfl
    exact setCA2_same s
  · rintro rfl
    exact setCB1_same s
  · rintro rfl
    exact setCB2_same s

end Sys2Proof.Machine
end

section
/-! PROOF. The tick of the VIA by its parts (47_via_tick R340 to R352): what each part may change of the record, when the tick
clocks the shift register, and so what a tick does to the pulse outputs (R347). -/

namespace Sys2Proof.Machine

-- What each part of the tick may change.

/-- The VIA record changes in the fields of timer 1, the flags and the line alone. -/
def TimerOneOnly (v w : Via) : Prop :=
  w =
    { v with
      t1c := w.t1c, t1Armed := w.t1Armed, t1JustLoaded := w.t1JustLoaded, t1Pb7 := w.t1Pb7
      ifr := w.ifr, irqLine := w.irqLine }

/-- The VIA record changes in the fields of timer 2, the flags and the line alone. -/
def TimerTwoOnly (v w : Via) : Prop :=
  w =
    { v with
      t2c := w.t2c, t2Armed := w.t2Armed, t2JustLoaded := w.t2JustLoaded, pb6Prev := w.pb6Prev
      ifr := w.ifr, irqLine := w.irqLine }

/-- The VIA record changes in the fields of the shift register, its two output lines, the flags and the line alone. -/
def ShifterOnly (v w : Via) : Prop :=
  w =
    { v with
      sr := w.sr, srCount := w.srCount, srPhase := w.srPhase, srActive := w.srActive
      cb1Out := w.cb1Out, cb2Out := w.cb2Out, ifr := w.ifr, irqLine := w.irqLine }

theorem t1Behaviour_timerOneOnly (v : Via) : TimerOneOnly v (t1Behaviour v) := by
  unfold t1Behaviour
  split <;> rfl

theorem t1Tick_timerOneOnly (s : State) : TimerOneOnly s.via (t1Tick s).via := by
  unfold t1Tick t1Expire
  dsimp only
  split
  · rfl
  · split
    · split
      · have hflag : IrqOnly s.via (setFlag .t1 s).via := setFlag_irqOnly .t1 s
        have hbehaviour := t1Behaviour_timerOneOnly (setFlag .t1 s).via
        unfold TimerOneOnly IrqOnly at *
        rw [mapVia_via, mapVia_via, hbehaviour, hflag]
      · rfl
    · rfl

theorem t2Count_timerTwoOnly (s : State) : TimerTwoOnly s.via (t2Count s).1.via := by
  unfold t2Count t2Expire
  dsimp only
  split
  · split
    · have hflag : IrqOnly s.via (setFlag .t2 s).via := setFlag_irqOnly .t2 s
      unfold TimerTwoOnly IrqOnly at *
      rw [mapVia_via, mapVia_via, hflag]
    · rfl
  · rfl

theorem t2Tick_timerTwoOnly (s : State) : TimerTwoOnly s.via (t2Tick s).1.via := by
  have hcount : TimerTwoOnly s.via (t2Count (mapVia samplePb6 s)).1.via := by
    have hsampled := t2Count_timerTwoOnly (mapVia samplePb6 s)
    unfold TimerTwoOnly at *
    rw [hsampled]
    rfl
  unfold t2Tick
  dsimp only
  split
  · split
    · exact hcount
    · rfl
  · split
    · rfl
    · exact hcount

theorem srStep_shifterOnly (s : State) : ShifterOnly s.via (srStep s).via := by
  unfold srStep srDone
  split
  · split
    · rfl
    · dsimp only
      split
      · have hflag : IrqOnly (srShift s.via) (setFlag .sr (mapVia srShift s)).via := setFlag_irqOnly .sr _
        unfold ShifterOnly IrqOnly at *
        rw [mapVia_via, hflag]
        rfl
      · rfl
  · rfl

-- Timer 2 expires in the tick.

theorem pbPin_getLsbD_six (v : Via) :
    v.pbPin.getLsbD 6 = if v.ddrb.getLsbD 6 then v.orb.getLsbD 6 else v.pbIn.getLsbD 6 := by
  rw [Via.pbPin, muxBits_portB_getLsbD _ _ (by decide)]
  simp

theorem t2Count_expired (s : State) : (t2Count s).2 = (s.via.t2c == 0) := by
  unfold t2Count
  split
  · next hzero => exact (beq_iff_eq.mpr hzero).symm
  · next hne => exact (beq_eq_false_iff_ne.mpr hne).symm

/-- Timer 2 expires when it counts at 0 (R344 to R346). -/
theorem t2Tick_expired (s : State) : (t2Tick s).2 = timer2Expires s.via := by
  have hcount : (t2Count (mapVia samplePb6 s)).2 = (s.via.t2c == 0) := t2Count_expired _
  unfold t2Tick timer2Expires timer2Counts
  have hpulse : t2Pulse (mapVia samplePb6 s).via.acr = s.via.acr.getLsbD 5 := rfl
  have hgrace : (mapVia samplePb6 s).via.t2JustLoaded = s.via.t2JustLoaded := rfl
  rw [← pbPin_getLsbD_six]
  dsimp only
  rw [hpulse, hgrace]
  cases s.via.acr.getLsbD 5
  · cases s.via.t2JustLoaded
    · exact hcount.trans (Bool.true_and _).symm
    · rfl
  · cases s.via.pb6Prev && !s.via.pbPin.getLsbD 6
    · rfl
    · exact hcount.trans (Bool.true_and _).symm

-- The tick clocks the shift register.

theorem srClockOf_tick : ∀ (mode : BitVec 3) (expired : Bool),
    (srClockOf mode == .everyTick || srClockOf mode == .t2Expiry && expired) =
      ([2, 6].contains mode.toNat || [1, 4, 5].contains mode.toNat && expired) := by decide

/-- The clock source of the mode, by its number (R350, R351). -/
theorem srClock_eq (expired : Bool) (s : State) :
    srClock expired s =
      if [2, 6].contains (srMode s.via) || [1, 4, 5].contains (srMode s.via) && expired then srStep s else s := by
  rw [srMode, ← srModeBits_toNat, ← srClockOf_tick, srClock]
  cases srClockOf (srModeBits s.via.acr) <;> cases expired <;> rfl

/-- The first three parts of a tick: pulse end, timer 1, timer 2. -/
def timersTick (s : State) : State := (t2Tick (t1Tick (mapVia pulseEnd s))).1

/-- They change the fields of the timers, the flags and the line, after the pulse end. -/
def TimersOnly (v w : Via) : Prop :=
  w =
    { v with
      t1c := w.t1c, t1Armed := w.t1Armed, t1JustLoaded := w.t1JustLoaded, t1Pb7 := w.t1Pb7
      t2c := w.t2c, t2Armed := w.t2Armed, t2JustLoaded := w.t2JustLoaded, pb6Prev := w.pb6Prev
      ifr := w.ifr, irqLine := w.irqLine }

theorem timersTick_timersOnly (s : State) : TimersOnly (pulseEnd s.via) (timersTick s).via := by
  have hone : TimerOneOnly (pulseEnd s.via) _ := t1Tick_timerOneOnly (mapVia pulseEnd s)
  have htwo : TimerTwoOnly _ (timersTick s).via := t2Tick_timerTwoOnly (t1Tick (mapVia pulseEnd s))
  unfold TimersOnly TimerOneOnly TimerTwoOnly at *
  rw [htwo, hone]

/-- The tick: its first three parts, then one phase where the state before the tick says so. -/
theorem tick_eq (s : State) : tick s = if tickClocksSr s.via then srStep (timersTick s) else timersTick s := by
  have hone : TimerOneOnly (pulseEnd s.via) _ := t1Tick_timerOneOnly (mapVia pulseEnd s)
  have hexpired : timer2Expires (t1Tick (mapVia pulseEnd s)).via = timer2Expires s.via :=
    (congrArg timer2Expires hone :)
  have hmode : srMode (timersTick s).via = srMode s.via := (congrArg srMode (timersTick_timersOnly s) :)
  have hclock := srClock_eq (timer2Expires s.via) (timersTick s)
  rw [hmode] at hclock
  rw [tick, t2Tick_expired, hexpired]
  exact hclock

-- The outputs after a tick.

theorem timersTick_ca2Out (s : State) : (timersTick s).via.ca2Out = (s.via.ca2Out || s.via.ca2Pulse) := by
  have hend : (timersTick s).via.ca2Out = if s.via.ca2Pulse then true else s.via.ca2Out :=
    (congrArg Via.ca2Out (timersTick_timersOnly s) :)
  rw [hend]
  cases s.via.ca2Pulse <;> simp

theorem timersTick_cb2Out (s : State) : (timersTick s).via.cb2Out = (s.via.cb2Out || s.via.cb2Pulse) := by
  have hend : (timersTick s).via.cb2Out = if s.via.cb2Pulse then true else s.via.cb2Out :=
    (congrArg Via.cb2Out (timersTick_timersOnly s) :)
  rw [hend]
  cases s.via.cb2Pulse <;> simp

/-- The fourth part of a tick changes the shifter, the flags and the line alone. -/
theorem tick_shifterOnly (s : State) : ShifterOnly (timersTick s).via (tick s).via := by
  rw [tick_eq]
  split
  · exact srStep_shifterOnly _
  · rfl

theorem tick_ca2Out (s : State) : (tick s).via.ca2Out = (s.via.ca2Out || s.via.ca2Pulse) :=
  (congrArg Via.ca2Out (tick_shifterOnly s)).trans (timersTick_ca2Out s)

theorem tick_ca2Pulse (s : State) : (tick s).via.ca2Pulse = false :=
  (congrArg Via.ca2Pulse (tick_shifterOnly s)).trans (congrArg Via.ca2Pulse (timersTick_timersOnly s))

theorem tick_cb2Pulse (s : State) : (tick s).via.cb2Pulse = false :=
  (congrArg Via.cb2Pulse (tick_shifterOnly s)).trans (congrArg Via.cb2Pulse (timersTick_timersOnly s))

/-- A phase presents bit 7 on CB2 when it is a notify phase of a shift out, and otherwise leaves CB2 (R352). -/
theorem srStep_cb2Out (s : State) :
    (srStep s).via.cb2Out =
      if s.via.srActive && s.via.srPhase == .notify && decide (4 ≤ srMode s.via) then decide (128 ≤ s.via.sr.toNat)
      else s.via.cb2Out := by
  have hout : srOut (srModeBits s.via.acr) = decide (4 ≤ srMode s.via) := by
    rw [srMode, ← srModeBits_toNat]
    exact (by decide : ∀ mode : BitVec 3, srOut mode = decide (4 ≤ mode.toNat)) _
  unfold srStep
  cases s.via.srActive
  case false => rfl
  case true =>
    cases s.via.srPhase
    case notify =>
      rw [← getLsbD_seven_eq_decide, ← hout]
      rfl
    case shift =>
      have hkept :
          (if (mapVia srShift s).via.srCount = 8 then srDone (mapVia srShift s) else mapVia srShift s).via.cb2Out =
            s.via.cb2Out := by
        split
        · exact (setFlag_irqOnly .sr (mapVia srShift s)).cb2Out
        · rfl
      exact hkept

theorem tick_cb2Out (s : State) :
    (tick s).via.cb2Out =
      if tickClocksSr s.via && s.via.srActive && s.via.srPhase == .notify && decide (4 ≤ srMode s.via) then
        decide (128 ≤ s.via.sr.toNat)
      else s.via.cb2Out || s.via.cb2Pulse := by
  have htimers := timersTick_timersOnly s
  have hactive : (timersTick s).via.srActive = s.via.srActive := (congrArg Via.srActive htimers :)
  have hphase : (timersTick s).via.srPhase = s.via.srPhase := (congrArg Via.srPhase htimers :)
  have hmode : srMode (timersTick s).via = srMode s.via := (congrArg srMode htimers :)
  have hsr : (timersTick s).via.sr = s.via.sr := (congrArg Via.sr htimers :)
  rw [tick_eq]
  cases tickClocksSr s.via
  case false => exact timersTick_cb2Out s
  case true =>
    rw [if_pos rfl, srStep_cb2Out, hactive, hphase, hmode, hsr, timersTick_cb2Out, Bool.true_and]

/-- A halted shift register stays halted: no phase starts it (R352). -/
theorem tick_halted {s : State} (h : s.via.srActive = false) : (tick s).via.srActive = false := by
  have hhalted : (timersTick s).via.srActive = false := (congrArg Via.srActive (timersTick_timersOnly s) :).trans h
  rw [tick_eq, srStep, hhalted, if_neg Bool.false_ne_true, ite_self]
  exact hhalted

/-- What every tick keeps is kept by any number of them. -/
theorem ticks_keep {P : State → Prop} (hP : ∀ s, P s → P (tick s)) (n : Nat) {s : State} (h : P s) : P (ticks n s) := by
  induction n generalizing s with
  | zero => exact h
  | succ n ih => exact ih (hP s h)

theorem ticks_ca2Out {s : State} (h : s.via.ca2Out = true) (n : Nat) : (ticks n s).via.ca2Out = true :=
  ticks_keep (P := fun u => u.via.ca2Out = true) (fun u hu => by rw [tick_ca2Out, hu, Bool.true_or]) n h

/-- With the shift register halted, CB2 stays high and a pulse ends high. -/
theorem tick_cb2Out_halted {s : State} (h : s.via.srActive = false) :
    (tick s).via.cb2Out = (s.via.cb2Out || s.via.cb2Pulse) := by
  rw [tick_cb2Out, h, Bool.and_false, Bool.false_and, Bool.false_and, if_neg Bool.false_ne_true]

/-- CB2 is high and the shift register is halted. -/
structure QuietHighCB2 (s : State) : Prop where
  halted : s.via.srActive = false
  high : s.via.cb2Out = true

theorem tick_quietHighCB2 {s : State} (hhalted : s.via.srActive = false)
    (hhigh : (s.via.cb2Out || s.via.cb2Pulse) = true) : QuietHighCB2 (tick s) :=
  ⟨tick_halted hhalted, (tick_cb2Out_halted hhalted).trans hhigh⟩

theorem ticks_quietHighCB2 {s : State} (h : QuietHighCB2 s) (n : Nat) : QuietHighCB2 (ticks n s) :=
  ticks_keep (fun u hu => tick_quietHighCB2 hu.halted (by rw [hu.high, Bool.true_or])) n h

-- The accesses that start a pulse.

/-- In mode 5 the handshake of port A starts a pulse on CA2 and leaves CB2 (R335). -/
theorem handshakeA_pulse (m : BitVec 7) {s : State} (h : s.via.pcr.toNat / 2 % 8 = 5) :
    let t := mapVia handshakeA (clearFlags m s)
    t.via.ca2Out = false ∧ t.via.ca2Pulse = true ∧ t.via.cb2Out = s.via.cb2Out := by
  rw [handshakeA_clearFlags, h]
  exact ⟨Bool.and_false _, Bool.or_true _, (clearFlags_irqOnly m s).cb2Out⟩

/-- In mode 5 the handshake of port B starts a pulse on CB2, and leaves CA2 and the shift register (R335). -/
theorem handshakeB_pulse (m : BitVec 7) {s : State} (h : s.via.pcr.toNat / 32 = 5) :
    let t := mapVia handshakeB (clearFlags m s)
    t.via.cb2Out = false ∧ t.via.cb2Pulse = true ∧ t.via.ca2Out = s.via.ca2Out ∧ t.via.srActive = s.via.srActive := by
  rw [handshakeB_clearFlags, h]
  exact ⟨Bool.and_false _, Bool.or_true _, (clearFlags_irqOnly m s).ca2Out, (clearFlags_irqOnly m s).srActive⟩

theorem registerOne_pulse {s : State} {a : Word} {d : Byte} (hvia : owner s a = .via) (hn : a.toNat % 16 = 1)
    (hmode : s.via.pcr.toNat / 2 % 8 = 5) {t : State} (ht : t = store8 a d s ∨ t = (load8 a s).2) :
    t.via.ca2Out = false ∧ t.via.ca2Pulse = true ∧ t.via.cb2Out = s.via.cb2Out := by
  obtain rfl | rfl := ht
  · rw [store8_register .ora hvia hn rfl]
    exact handshakeA_pulse _ (s := mapVia (fun v => { v with ora := d }) s) hmode
  · rw [load8_register .ora hvia hn rfl]
    exact handshakeA_pulse _ hmode

theorem registerZero_pulse {s : State} {a : Word} (d : Byte) (hvia : owner s a = .via) (hn : a.toNat % 16 = 0)
    (hmode : s.via.pcr.toNat / 32 = 5) :
    let t := store8 a d s
    t.via.cb2Out = false ∧ t.via.cb2Pulse = true ∧ t.via.ca2Out = s.via.ca2Out ∧ t.via.srActive = s.via.srActive := by
  rw [store8_register .orb hvia hn rfl]
  exact handshakeB_pulse _ (s := mapVia (fun v => { v with orb := d }) s) hmode

/-- Settles O57: the tick after the access ends the pulse, and from then on nothing lowers the line but a shift out. -/
theorem pulseLastsOneTick : Obligations.PulseLastsOneTick := by
  refine ⟨fun s => ⟨tick_ca2Out s, tick_ca2Pulse s, tick_cb2Pulse s⟩, ?ca2, ?cb2⟩
  case ca2 =>
    intro s a d hvia hn hmode t ht
    obtain ⟨hlow, hpulse, hcb2⟩ := registerOne_pulse hvia hn hmode ht
    exact ⟨hlow, hcb2, ticks_ca2Out (by rw [tick_ca2Out, hpulse, Bool.or_true])⟩
  case cb2 =>
    intro s a d hvia hn hmode t presents
    obtain ⟨hlow, hpulse, hca2, hactive⟩ := registerZero_pulse d hvia hn hmode
    have hend : (t.via.cb2Out || t.via.cb2Pulse) = true := by rw [hpulse, Bool.or_true]
    refine ⟨hlow, hca2, ?read, (tick_cb2Out t).trans (by rw [hend]), fun hhalted n => ?halted⟩
    case read =>
      rw [load8_register .orb hvia hn rfl]
      exact (clearFlags_irqOnly _ s).cb2Out
    case halted => exact (ticks_quietHighCB2 (tick_quietHighCB2 (hactive.trans hhalted) hend) n).high

end Sys2Proof.Machine
end

section
/-! PROOF. The flags and the timers in a tick (47_via_tick R341, R342, R344 to R346): which flag each part may raise, and what
the tick does to each timer, as a function of the timer's own fields. -/

namespace Sys2Proof.Machine

-- The flags.

/-- `setFlag(b)` on the VIA record: the flag, and the line that follows (46_via_registers R330). -/
theorem setFlag_via (src : IrqSource) (s : State) :
    (setFlag src s).via =
      { s.via with ifr := s.via.ifr ||| sourceMask src, irqLine := (setFlag src s).via.irqLine } := by
  rw [setFlag, updateIrq_via]
  rfl

theorem setFlag_ifr_getLsbD (src : IrqSource) (s : State) (i : Nat) :
    (setFlag src s).via.ifr.getLsbD i = (s.via.ifr.getLsbD i || (sourceMask src).getLsbD i) := by
  rw [congrArg Via.ifr (setFlag_via src s), BitVec.getLsbD_or]

theorem setFlag_ifr_other {src : IrqSource} {i : Nat} (hi : (sourceMask src).getLsbD i = false) (s : State) :
    (setFlag src s).via.ifr.getLsbD i = s.via.ifr.getLsbD i := by
  rw [setFlag_ifr_getLsbD, hi, Bool.or_false]

theorem t1Behaviour_ifr (v : Via) : (t1Behaviour v).ifr = v.ifr := by
  unfold t1Behaviour
  split <;> rfl

/-- Timer 1 raises no flag but its own. -/
theorem t1Tick_ifr_other {i : Nat} (hi : (sourceMask .t1).getLsbD i = false) (s : State) :
    (t1Tick s).via.ifr.getLsbD i = s.via.ifr.getLsbD i := by
  unfold t1Tick t1Expire
  dsimp only
  split
  · rfl
  · split
    · split
      · rw [mapVia_via, mapVia_via, t1Behaviour_ifr]
        exact setFlag_ifr_other hi s
      · rfl
    · rfl

/-- A count of timer 2 raises no flag but its own. -/
theorem t2Count_ifr_other {i : Nat} (hi : (sourceMask .t2).getLsbD i = false) (s : State) :
    (t2Count s).1.via.ifr.getLsbD i = s.via.ifr.getLsbD i := by
  unfold t2Count t2Expire
  dsimp only
  split
  · split
    · exact setFlag_ifr_other hi s
    · rfl
  · rfl

/-- The sampling of port B bit 6, and the end of the grace tick in the mode that has one (R344). -/
def sampleEndingGrace (v : Via) : Via :=
  { samplePb6 v with t2JustLoaded := v.acr.getLsbD 5 && v.t2JustLoaded }

theorem sampleEndingGrace_eq_samplePb6 {v : Via} (h : (v.acr.getLsbD 5 && v.t2JustLoaded) = v.t2JustLoaded) :
    sampleEndingGrace v = samplePb6 v := by
  rw [sampleEndingGrace, h]
  rfl

/-- Timer 2 in a tick: the sampling, then a count where the state before says so (R344, R345). -/
theorem t2Tick_eq (s : State) :
    (t2Tick s).1 =
      if timer2Counts s.via then (t2Count (mapVia sampleEndingGrace s)).1 else mapVia sampleEndingGrace s := by
  have hpulse : t2Pulse (mapVia samplePb6 s).via.acr = s.via.acr.getLsbD 5 := rfl
  have hgrace : (mapVia samplePb6 s).via.t2JustLoaded = s.via.t2JustLoaded := rfl
  unfold t2Tick timer2Counts
  rw [← pbPin_getLsbD_six]
  dsimp only
  rw [hpulse, hgrace, mapVia, mapVia, mapVia]
  cases hmode : s.via.acr.getLsbD 5
  case false =>
    cases hloaded : s.via.t2JustLoaded
    case false =>
      rw [sampleEndingGrace_eq_samplePb6 (by rw [hmode, hloaded, Bool.false_and])]
      rfl
    case true =>
      rw [sampleEndingGrace, hmode]
      rfl
  case true =>
    rw [sampleEndingGrace_eq_samplePb6 (by rw [hmode, Bool.true_and]), if_pos rfl, if_pos rfl]
    split <;> rfl

theorem t2Tick_ifr_other {i : Nat} (hi : (sourceMask .t2).getLsbD i = false) (s : State) :
    (t2Tick s).1.via.ifr.getLsbD i = s.via.ifr.getLsbD i := by
  rw [t2Tick_eq]
  split
  · exact t2Count_ifr_other hi (mapVia sampleEndingGrace s)
  · rfl

/-- A phase of the shift register raises no flag but its own. -/
theorem srStep_ifr_other {i : Nat} (hi : (sourceMask .sr).getLsbD i = false) (s : State) :
    (srStep s).via.ifr.getLsbD i = s.via.ifr.getLsbD i := by
  unfold srStep srDone
  split
  · split
    · rfl
    · dsimp only
      split
      · exact setFlag_ifr_other hi (mapVia srShift s)
      · rfl
  · rfl

theorem tick_ifr_other_than_sr {i : Nat} (hi : (sourceMask .sr).getLsbD i = false) (s : State) :
    (tick s).via.ifr.getLsbD i = (timersTick s).via.ifr.getLsbD i := by
  rw [tick_eq]
  split
  · exact srStep_ifr_other hi _
  · rfl

theorem timersTick_ifr_sr (s : State) : (timersTick s).via.ifr.getLsbD 2 = s.via.ifr.getLsbD 2 :=
  (t2Tick_ifr_other (by decide) _).trans (t1Tick_ifr_other (by decide) (mapVia pulseEnd s))

-- Timer 1.

/-- The fields of timer 1, and its flag. -/
structure TimerOne where
  count : Word
  latch : Word
  armed : Bool
  justLoaded : Bool
  pb7 : Bool
  flag : Bool

def Via.timerOne (v : Via) : TimerOne := ⟨v.t1c, v.t1l, v.t1Armed, v.t1JustLoaded, v.t1Pb7, v.ifr.getLsbD 6⟩

/-- The expiry of timer 1: the reload and, when armed, the flag and the behaviour that `ACR[7:6]` selects (R342). -/
def TimerOne.expire (acr : Byte) (t : TimerOne) : TimerOne :=
  { t with
    count := t.latch
    flag := t.flag || t.armed
    armed := t.armed && acr.getLsbD 6
    pb7 :=
      if t.armed = false then t.pb7
      else if acr.getLsbD 6 then !t.pb7
      else if acr.getLsbD 7 then true
      else t.pb7 }

/-- One tick of timer 1 (R341). -/
def TimerOne.next (acr : Byte) (t : TimerOne) : TimerOne :=
  if t.justLoaded then { t with justLoaded := false }
  else if t.count = 0 then t.expire acr
  else { t with count := t.count - 1 }

theorem TimerOne.expire_unarmed (acr : Byte) {t : TimerOne} (h : t.armed = false) :
    t.expire acr = { t with count := t.latch } := by
  simp [TimerOne.expire, h]

/-- The expiry of an armed timer 1 once its flag is up. -/
def TimerOne.behave (acr : Byte) (t : TimerOne) : TimerOne :=
  { t with
    count := t.latch
    armed := t.armed && acr.getLsbD 6
    pb7 := if acr.getLsbD 6 then !t.pb7 else if acr.getLsbD 7 then true else t.pb7 }

theorem TimerOne.expire_armed (acr : Byte) {t : TimerOne} (h : t.armed = true) :
    t.expire acr = { t with flag := t.flag || true }.behave acr := by
  simp [TimerOne.expire, TimerOne.behave, h]

theorem t1Behaviour_eq (v : Via) :
    t1Behaviour v =
      { v with
        t1Armed := v.t1Armed && v.acr.getLsbD 6
        t1Pb7 := if v.acr.getLsbD 6 then !v.t1Pb7 else if v.acr.getLsbD 7 then true else v.t1Pb7 } := by
  unfold t1Behaviour t1Pb7En t1Cont
  cases v.acr.getLsbD 7 <;> cases v.acr.getLsbD 6 <;> simp

theorem setFlag_timerOne (s : State) :
    (setFlag .t1 s).via.timerOne = { s.via.timerOne with flag := s.via.timerOne.flag || true } := by
  rw [Via.timerOne, setFlag_ifr_getLsbD, setFlag_via]
  rfl

theorem t1Expire_timerOne (s : State) : (t1Expire s).via.timerOne = s.via.timerOne.expire s.via.acr := by
  unfold t1Expire
  split
  · next harmed =>
    have hacr : (setFlag .t1 s).via.acr = s.via.acr := (setFlag_irqOnly .t1 s).acr
    have hflagged := setFlag_timerOne s
    rw [TimerOne.expire_armed _ harmed, mapVia_via, mapVia_via, t1Behaviour_eq, hacr]
    exact congrArg (TimerOne.behave s.via.acr) hflagged
  · next hunarmed =>
    rw [TimerOne.expire_unarmed _ (Bool.eq_false_of_not_eq_true hunarmed)]
    rfl

theorem t1Tick_timerOne (s : State) : (t1Tick s).via.timerOne = s.via.timerOne.next s.via.acr := by
  have hnext : s.via.timerOne.next s.via.acr =
      if s.via.t1JustLoaded then { s.via.timerOne with justLoaded := false }
      else if s.via.t1c = 0 then s.via.timerOne.expire s.via.acr
      else { s.via.timerOne with count := s.via.t1c - 1 } := rfl
  rw [hnext, t1Tick]
  split
  · rfl
  · split
    · exact t1Expire_timerOne s
    · rfl

/-- Timer 2 and the shift register leave timer 1 alone. -/
theorem tick_timerOne (s : State) : (tick s).via.timerOne = s.via.timerOne.next s.via.acr := by
  have hshifter := tick_shifterOnly s
  have htwo : TimerTwoOnly _ (timersTick s).via := t2Tick_timerTwoOnly (t1Tick (mapVia pulseEnd s))
  have hflag : (tick s).via.ifr.getLsbD 6 = (t1Tick (mapVia pulseEnd s)).via.ifr.getLsbD 6 :=
    (tick_ifr_other_than_sr (by decide) s).trans (t2Tick_ifr_other (by decide) _)
  calc (tick s).via.timerOne
    _ = (t1Tick (mapVia pulseEnd s)).via.timerOne := by
      unfold ShifterOnly TimerTwoOnly at *
      rw [Via.timerOne, hflag, hshifter, htwo]
      rfl
    _ = s.via.timerOne.next s.via.acr := t1Tick_timerOne (mapVia pulseEnd s)

theorem ne_zero_of_toNat_pos {c : Word} (h : 0 < c.toNat) : c ≠ 0 := by
  rintro rfl
  exact Nat.lt_irrefl 0 h

theorem sub_one_toNat_add_one {c : Word} (h : 0 < c.toNat) : (c - 1).toNat + 1 = c.toNat := by bv_omega

namespace TimerOne

variable {acr : Byte} {t : TimerOne}

theorem next_grace (h : t.justLoaded = true) : t.next acr = { t with justLoaded := false } := if_pos h

theorem next_expiry (h : t.justLoaded = false) (hzero : t.count = 0) : t.next acr = t.expire acr := by
  rw [next, h, if_neg Bool.false_ne_true, if_pos hzero]

theorem next_count (h : t.justLoaded = false) (hpos : t.count ≠ 0) :
    t.next acr = { t with count := t.count - 1 } := by
  rw [next, h, if_neg Bool.false_ne_true, if_neg hpos]

theorem next_latch : (t.next acr).latch = t.latch := by
  unfold next
  split
  · rfl
  · split <;> rfl

theorem next_justLoaded : (t.next acr).justLoaded = false := by
  unfold next
  split
  · rfl
  · next h =>
    have hcleared : t.justLoaded = false := Bool.eq_false_of_not_eq_true h
    split <;> exact hcleared

end TimerOne

/-- Settles O52: the three cases of the tick are those of `TimerOne.next`. -/
theorem timerOneTick : Obligations.TimerOneTick := by
  intro s v t
  have hnext : t.timerOne = v.timerOne.next v.acr := tick_timerOne s
  refine ⟨(congrArg TimerOne.latch hnext).trans TimerOne.next_latch,
    (congrArg TimerOne.justLoaded hnext).trans TimerOne.next_justLoaded, fun hgrace => ?grace, fun hloaded hpos => ?count,
    fun hloaded hzero => ?expiry⟩
  case grace =>
    rw [TimerOne.next_grace hgrace] at hnext
    obtain ⟨hcount, -, harmed, -, hpb7, hflag⟩ := TimerOne.mk.inj hnext
    exact ⟨hcount, hflag, harmed, hpb7⟩
  case count =>
    rw [TimerOne.next_count hloaded (ne_zero_of_toNat_pos hpos)] at hnext
    obtain ⟨hcount, -, harmed, -, hpb7, hflag⟩ := TimerOne.mk.inj hnext
    exact ⟨hcount ▸ sub_one_toNat_add_one hpos, hflag, harmed, hpb7⟩
  case expiry =>
    rw [TimerOne.next_expiry hloaded (BitVec.eq_of_toNat_eq hzero)] at hnext
    obtain ⟨hcount, -, harmed, -, hpb7, hflag⟩ := TimerOne.mk.inj hnext
    exact ⟨hcount, hflag, harmed, hpb7⟩

-- Timer 2.

/-- The fields of timer 2, and its flag. -/
structure TimerTwo where
  count : Word
  latch : Word
  armed : Bool
  justLoaded : Bool
  pb6Prev : Bool
  flag : Bool

def Via.timerTwo (v : Via) : TimerTwo := ⟨v.t2c, v.t2l, v.t2Armed, v.t2JustLoaded, v.pb6Prev, v.ifr.getLsbD 5⟩

/-- One count of timer 2: a decrement or, at 0, the reload and the flag once per arming (R344 to R346). -/
def TimerTwo.countDown (t : TimerTwo) : TimerTwo :=
  if t.count = 0 then { t with count := t.latch, flag := t.flag || t.armed, armed := false }
  else { t with count := t.count - 1 }

/-- One tick of timer 2 by the level of port B bit 6, whether the timer counts, and the bit of the counting mode. -/
def TimerTwo.next (level counts pulse : Bool) (t : TimerTwo) : TimerTwo :=
  let sampled := { t with pb6Prev := level, justLoaded := pulse && t.justLoaded }
  if counts then sampled.countDown else sampled

namespace TimerTwo

variable (level pulse : Bool) {t : TimerTwo}

theorem next_sampled (counts : Bool) (t : TimerTwo) :
    (t.next level counts pulse).pb6Prev = level ∧ (t.next level counts pulse).latch = t.latch ∧
      (t.next level counts pulse).justLoaded = (pulse && t.justLoaded) := by
  unfold next countDown
  dsimp only
  split
  · split <;> exact ⟨rfl, rfl, rfl⟩
  · exact ⟨rfl, rfl, rfl⟩

theorem next_not_counting (t : TimerTwo) :
    t.next level false pulse = { t with pb6Prev := level, justLoaded := pulse && t.justLoaded } := rfl

theorem next_count (hpos : t.count ≠ 0) :
    t.next level true pulse =
      { t with count := t.count - 1, pb6Prev := level, justLoaded := pulse && t.justLoaded } := if_neg hpos

theorem next_expiry (hzero : t.count = 0) :
    t.next level true pulse =
      { t with
        count := t.latch, flag := t.flag || t.armed, armed := false
        pb6Prev := level, justLoaded := pulse && t.justLoaded } := if_pos hzero

end TimerTwo

theorem setFlag_timerTwo (s : State) :
    (setFlag .t2 s).via.timerTwo = { s.via.timerTwo with flag := s.via.timerTwo.flag || true } := by
  rw [Via.timerTwo, setFlag_ifr_getLsbD, setFlag_via]
  rfl

theorem t2Expire_timerTwo (s : State) :
    (t2Expire s).via.timerTwo =
      { s.via.timerTwo with
        count := s.via.t2l, flag := s.via.timerTwo.flag || s.via.t2Armed, armed := false } := by
  unfold t2Expire
  cases h : s.via.t2Armed
  case false =>
    rw [Bool.or_false]
    exact congrArg (fun a => { s.via.timerTwo with count := s.via.t2l, armed := a }) h
  case true =>
    have hflagged := setFlag_timerTwo s
    exact congrArg (fun t : TimerTwo => { t with count := t.latch, armed := false }) hflagged

theorem t2Count_timerTwo (s : State) : (t2Count s).1.via.timerTwo = s.via.timerTwo.countDown := by
  have hcount : s.via.timerTwo.countDown =
      if s.via.t2c = 0 then
        { s.via.timerTwo with count := s.via.t2l, flag := s.via.timerTwo.flag || s.via.t2Armed, armed := false }
      else { s.via.timerTwo with count := s.via.t2c - 1 } := rfl
  rw [hcount, t2Count]
  split
  · exact t2Expire_timerTwo s
  · rfl

theorem t2Tick_timerTwo (s : State) :
    (t2Tick s).1.via.timerTwo =
      s.via.timerTwo.next (s.via.pbPin.getLsbD 6) (timer2Counts s.via) (s.via.acr.getLsbD 5) := by
  rw [t2Tick_eq, TimerTwo.next]
  split
  · exact t2Count_timerTwo (mapVia sampleEndingGrace s)
  · rfl

/-- Timer 1 and the shift register leave timer 2 alone. -/
theorem tick_timerTwo (s : State) :
    (tick s).via.timerTwo =
      s.via.timerTwo.next (s.via.pbPin.getLsbD 6) (timer2Counts s.via) (s.via.acr.getLsbD 5) := by
  have hshifter := tick_shifterOnly s
  have hone : TimerOneOnly (pulseEnd s.via) _ := t1Tick_timerOneOnly (mapVia pulseEnd s)
  have hflag : (tick s).via.ifr.getLsbD 5 = (timersTick s).via.ifr.getLsbD 5 :=
    tick_ifr_other_than_sr (by decide) s
  have hcounts : timer2Counts (t1Tick (mapVia pulseEnd s)).via = timer2Counts s.via := (congrArg timer2Counts hone :)
  have hmode : (t1Tick (mapVia pulseEnd s)).via.acr = s.via.acr := (congrArg Via.acr hone :)
  have hpin : (t1Tick (mapVia pulseEnd s)).via.pbPin.getLsbD 6 = s.via.pbPin.getLsbD 6 := by
    rw [pbPin_getLsbD_six, pbPin_getLsbD_six, hone]
    rfl
  have hbefore : (t1Tick (mapVia pulseEnd s)).via.timerTwo = s.via.timerTwo := by
    rw [Via.timerTwo, t1Tick_ifr_other (by decide), hone]
    rfl
  calc (tick s).via.timerTwo
    _ = (timersTick s).via.timerTwo := by
      rw [Via.timerTwo, hflag, hshifter]
      rfl
    _ = _ := t2Tick_timerTwo (t1Tick (mapVia pulseEnd s))
    _ = _ := by rw [hcounts, hmode, hpin, hbefore]

/-- Settles O53: the three cases of the tick are those of `TimerTwo.next`. -/
theorem timerTwoTick : Obligations.TimerTwoTick := by
  intro s v t level pulse counts
  have hnext : t.timerTwo = v.timerTwo.next level counts pulse :=
    (tick_timerTwo s).trans (by rw [pbPin_getLsbD_six])
  obtain ⟨hlevel, hlatch, hloaded⟩ := TimerTwo.next_sampled level pulse counts v.timerTwo
  refine ⟨(congrArg TimerTwo.pb6Prev hnext).trans hlevel, (congrArg TimerTwo.latch hnext).trans hlatch,
    (congrArg TimerTwo.justLoaded hnext).trans hloaded, fun hkeeps => ?keep, fun hcounts hpos => ?count,
    fun hcounts hzero => ?expiry⟩
  case keep =>
    rw [hkeeps, TimerTwo.next_not_counting] at hnext
    obtain ⟨hcount, -, harmed, -, -, hflag⟩ := TimerTwo.mk.inj hnext
    exact ⟨hcount, hflag, harmed⟩
  case count =>
    rw [hcounts, TimerTwo.next_count level pulse (ne_zero_of_toNat_pos hpos)] at hnext
    obtain ⟨hcount, -, harmed, -, -, hflag⟩ := TimerTwo.mk.inj hnext
    exact ⟨hcount ▸ sub_one_toNat_add_one hpos, hflag, harmed⟩
  case expiry =>
    rw [hcounts, TimerTwo.next_expiry level pulse (BitVec.eq_of_toNat_eq hzero)] at hnext
    obtain ⟨hcount, -, harmed, -, -, hflag⟩ := TimerTwo.mk.inj hnext
    exact ⟨hcount, hflag, harmed⟩

end Sys2Proof.Machine
end

section
/-! PROOF. The period of timer 1 with square-wave output (47_via_tick R341 to R343): its state between two expiries, by how many
there have been and how many ticks have passed since. -/

namespace Sys2Proof.Machine

/-- Timer 1 in continuous mode, `elapsed` ticks after its grace tick or its last expiry: the counter has gone down from the
latch, PB7 has inverted at each expiry, and the first raised the flag. -/
def TimerOne.wave (latch : Word) (expiries elapsed : Nat) : TimerOne where
  count := BitVec.ofNat 16 (latch.toNat - elapsed)
  latch := latch
  armed := true
  justLoaded := false
  pb7 := decide (expiries % 2 = 1)
  flag := decide (0 < expiries)

namespace TimerOne

variable {acr : Byte} {latch : Word} {expiries elapsed : Nat}

theorem wave_count_toNat : (wave latch expiries elapsed).count.toNat = latch.toNat - elapsed := by
  rw [wave, BitVec.toNat_ofNat, Nat.mod_eq_of_lt]
  exact Nat.lt_of_le_of_lt (Nat.sub_le _ _) latch.isLt

/-- The wave starts with the counter at the latch. -/
theorem wave_zero (latch : Word) (expiries : Nat) :
    { wave latch expiries 0 with count := latch } = wave latch expiries 0 := by
  have hcount : (wave latch expiries 0).count = latch :=
    BitVec.eq_of_toNat_eq (wave_count_toNat.trans (Nat.sub_zero _))
  exact congrArg (fun c => { wave latch expiries 0 with count := c }) hcount.symm

theorem not_decide_mod_two (n : Nat) : (!decide (n % 2 = 1)) = decide ((n + 1) % 2 = 1) := by
  rw [← decide_not, decide_eq_decide]
  omega

theorem wave_next_of_lt (h : elapsed < latch.toNat) :
    (wave latch expiries elapsed).next acr = wave latch expiries (elapsed + 1) := by
  have hcount := wave_count_toNat (latch := latch) (expiries := expiries) (elapsed := elapsed)
  have hcount' := wave_count_toNat (latch := latch) (expiries := expiries) (elapsed := elapsed + 1)
  have hpos : 0 < (wave latch expiries elapsed).count.toNat := by omega
  have hdown : (wave latch expiries elapsed).count - 1 = (wave latch expiries (elapsed + 1)).count := by
    have hsub := sub_one_toNat_add_one hpos
    apply BitVec.eq_of_toNat_eq
    omega
  rw [next_count rfl (ne_zero_of_toNat_pos hpos), hdown]
  rfl

theorem wave_next_at_latch (hcont : acr.getLsbD 6 = true) :
    (wave latch expiries latch.toNat).next acr = wave latch (expiries + 1) 0 := by
  have hzero : (wave latch expiries latch.toNat).count = 0 :=
    BitVec.eq_of_toNat_eq (wave_count_toNat.trans (Nat.sub_self _))
  have hinvert : (!(wave latch expiries latch.toNat).pb7) = (wave latch (expiries + 1) 0).pb7 :=
    not_decide_mod_two expiries
  have hflag : ((wave latch expiries latch.toNat).flag || true) = (wave latch (expiries + 1) 0).flag := by
    rw [Bool.or_true]
    exact (decide_eq_true (Nat.succ_pos expiries)).symm
  rw [next_expiry rfl hzero, expire_armed _ rfl, behave, hcont]
  dsimp only
  rw [if_pos rfl, hinvert, hflag]
  exact wave_zero latch (expiries + 1)

/-- One tick later: the same expiries while the counter is above 0, and else one more. -/
theorem wave_next (hcont : acr.getLsbD 6 = true) (k : Nat) :
    (wave latch (k / (latch.toNat + 1)) (k % (latch.toNat + 1))).next acr =
      wave latch ((k + 1) / (latch.toNat + 1)) ((k + 1) % (latch.toNat + 1)) := by
  have hperiod : 0 < latch.toNat + 1 := Nat.succ_pos _
  have hlt : k % (latch.toNat + 1) < latch.toNat + 1 := Nat.mod_lt _ hperiod
  have hk : k % (latch.toNat + 1) + (latch.toNat + 1) * (k / (latch.toNat + 1)) = k := Nat.mod_add_div _ _
  rcases Nat.lt_succ_iff_lt_or_eq.mp hlt with hbelow | hend
  · obtain ⟨hdiv, hmod⟩ : (k + 1) / (latch.toNat + 1) = k / (latch.toNat + 1) ∧
        (k + 1) % (latch.toNat + 1) = k % (latch.toNat + 1) + 1 :=
      (Nat.div_mod_unique hperiod).mpr ⟨by omega, by omega⟩
    rw [wave_next_of_lt hbelow, hdiv, hmod]
  · obtain ⟨hdiv, hmod⟩ : (k + 1) / (latch.toNat + 1) = k / (latch.toNat + 1) + 1 ∧ (k + 1) % (latch.toNat + 1) = 0 :=
      (Nat.div_mod_unique hperiod).mpr ⟨by rw [Nat.mul_add_one]; omega, hperiod⟩
    rw [hend, wave_next_at_latch hcont, hdiv, hmod]

end TimerOne

theorem tick_acr (s : State) : (tick s).via.acr = s.via.acr :=
  (congrArg Via.acr (tick_shifterOnly s) :).trans (congrArg Via.acr (timersTick_timersOnly s) :)

theorem ticks_acr (n : Nat) (s : State) : (ticks n s).via.acr = s.via.acr :=
  ticks_keep (P := fun u => u.via.acr = s.via.acr) (fun u hu => (tick_acr u).trans hu) n rfl

theorem ticks_succ (n : Nat) (s : State) : ticks (n + 1) s = tick (ticks n s) := ticks_add n 1 s

/-- Timer 1 as a write of register 5 leaves it with PB7 as its output (R312). -/
def TimerOne.loaded (latch : Word) : TimerOne := ⟨latch, latch, true, true, false, false⟩

/-- The first tick is the grace tick; every later one is a tick of the wave. -/
theorem ticks_timerOne_wave {s : State} {latch : Word} (hloaded : s.via.timerOne = .loaded latch)
    (hcont : s.via.acr.getLsbD 6 = true) (k : Nat) :
    (ticks (k + 1) s).via.timerOne = .wave latch (k / (latch.toNat + 1)) (k % (latch.toNat + 1)) := by
  induction k with
  | zero =>
    have hgrace : s.via.timerOne.justLoaded = true := congrArg TimerOne.justLoaded hloaded
    rw [Nat.zero_div, Nat.zero_mod, ticks_succ, ticks, tick_timerOne, TimerOne.next_grace hgrace, hloaded]
    exact TimerOne.wave_zero latch 0
  | succ k ih =>
    rw [ticks_succ, tick_timerOne, ih, ticks_acr, TimerOne.wave_next hcont]

theorem pbPin_getLsbD_seven {v : Via} (h : v.acr.getLsbD 7 = true) : v.pbPin.getLsbD 7 = v.timerOne.pb7 := by
  rw [Via.pbPin, muxBits_portB_getLsbD _ _ (by decide), h]
  simp [Via.timerOne]

theorem clearFlags_ifr_getLsbD_of_named {m : BitVec 7} {i : Nat} (h : m.getLsbD i = true) (s : State) :
    (clearFlags m s).via.ifr.getLsbD i = false := by
  rw [clearFlags, updateIrq_via, mapVia_via, BitVec.getLsbD_and, BitVec.getLsbD_not, h]
  simp

/-- The write of register 5 that starts the wave. -/
theorem store8_t1ch_timerOne {s : State} {a : Word} (d : Byte) (hvia : owner s a = .via) (hn : a.toNat % 16 = 5)
    (hout : s.via.acr.getLsbD 7 = true) :
    (store8 a d s).via.timerOne = .loaded (joinBytes d (loByte s.via.t1l)) := by
  rw [store8_register .t1ch hvia hn rfl, viaWrite, writeT1CounterHigh_eq, Via.timerOne,
    clearFlags_ifr_getLsbD_of_named (by decide), clearFlags_irqOnly]
  simp [TimerOne.loaded, hout]

theorem store8_t1ch_acr {s : State} {a : Word} (d : Byte) (hvia : owner s a = .via) (hn : a.toNat % 16 = 5) :
    (store8 a d s).via.acr = s.via.acr := by
  rw [store8_register .t1ch hvia hn rfl, viaWrite, writeT1CounterHigh_eq]
  exact (clearFlags_irqOnly _ _).acr

/-- Settles O54: from the write on, timer 1 is its wave, whose period is one more than the latch. -/
theorem timerOnePeriod : Obligations.TimerOnePeriod := by
  intro s a d hvia hn hout hcont latch k t
  have hlatch : (joinBytes d (loByte s.via.t1l)).toNat = latch := by
    rw [joinBytes_toNat, loByte_eq_ofNat, BitVec.toNat_ofNat, Nat.mod_mod]
  have hacr := store8_t1ch_acr d hvia hn
  have hwave := ticks_timerOne_wave (store8_t1ch_timerOne d hvia hn hout) (hacr.symm ▸ hcont) k
  have hpin : t.via.pbPin.getLsbD 7 = t.via.timerOne.pb7 :=
    pbPin_getLsbD_seven (by rw [ticks_acr, hacr, hout])
  rw [hlatch] at hwave
  refine ⟨hpin.trans (congrArg TimerOne.pb7 hwave), (congrArg TimerOne.flag hwave).trans ?_⟩
  exact decide_eq_decide.mpr (Nat.div_pos_iff.trans (and_iff_right (Nat.succ_pos latch)))

end Sys2Proof.Machine
end

section
/-! PROOF. One phase of the shift register (47_via_tick R350 to R353, R355): `srStep()` with numbers for its bits, and when a
tick and a change of CB1 perform it. -/

namespace Sys2Proof.Machine

-- The fields of the mode, and the register moved by one place.

theorem srInternal_eq (v : Via) : srInternal (srModeBits v.acr) = srClockOut v := by
  rw [srClockOut, srMode, ← srModeBits_toNat]
  exact (by decide : ∀ mode : BitVec 3, srInternal mode = [1, 2, 4, 5, 6].contains mode.toNat) _

theorem srOut_eq (v : Via) : srOut (srModeBits v.acr) = decide (4 ≤ srMode v) := by
  rw [srMode, ← srModeBits_toNat]
  exact (by decide : ∀ mode : BitVec 3, srOut mode = decide (4 ≤ mode.toNat)) _

theorem extractLsb'_append_ofBool (m : Byte) (b : Bool) :
    m.extractLsb' 0 7 ++ BitVec.ofBool b = BitVec.ofNat 8 (m.toNat * 2 + bitNat b) := by
  have hbit : (BitVec.ofBool b).toNat = bitNat b := by cases b <;> rfl
  apply BitVec.eq_of_toNat_eq
  rw [BitVec.toNat_append, ← Nat.shiftLeft_add_eq_or_of_lt (BitVec.ofBool b).isLt, Nat.shiftLeft_eq, hbit,
    BitVec.extractLsb'_toNat, BitVec.toNat_ofNat, bitNat]
  split <;> omega

-- The three cases of a phase.

theorem onePhase_halted {v : Via} (h : v.srActive = false) : onePhase v = v := by
  unfold onePhase
  rw [h]

theorem onePhase_notify {v : Via} (hactive : v.srActive = true) (hphase : v.srPhase = .notify) :
    onePhase v =
      { v with
        cb1Out := v.cb1Out && !srClockOut v
        cb2Out := if 4 ≤ srMode v then decide (128 ≤ v.sr.toNat) else v.cb2Out
        srPhase := .shift } := by
  unfold onePhase
  rw [hactive, hphase]
  simp

theorem onePhase_shift {v : Via} (hactive : v.srActive = true) (hphase : v.srPhase = .shift) :
    onePhase v =
      { v with
        cb1Out := v.cb1Out || srClockOut v
        sr := BitVec.ofNat 8 (v.sr.toNat * 2 + bitNat (if 4 ≤ srMode v then decide (128 ≤ v.sr.toNat) else v.cb2In))
        srCount := v.srCount + 1
        srPhase := .notify
        srActive := !phaseCompletes v } := by
  unfold onePhase
  rw [hactive, hphase]
  simp

theorem onePhase_ifr (v : Via) : (onePhase v).ifr = v.ifr := by
  unfold onePhase
  split <;> rfl

theorem srNotify_eq {v : Via} (hactive : v.srActive = true) (hphase : v.srPhase = .notify) :
    srNotify v = onePhase v := by
  rw [onePhase_notify hactive hphase, srNotify, srInternal_eq, srOut_eq, ← getLsbD_seven_eq_decide]
  cases srClockOut v <;> simp

/-- A shift phase is `srShift`, and the eighth halts. -/
theorem srShift_eq {v : Via} (hactive : v.srActive = true) (hphase : v.srPhase = .shift) :
    { srShift v with srActive := !phaseCompletes v } = onePhase v := by
  rw [onePhase_shift hactive hphase, srShift, srInternal_eq, srOut_eq, ← getLsbD_seven_eq_decide,
    extractLsb'_append_ofBool]
  cases srClockOut v <;> simp

theorem ApartFromIrq.setFlag_mapVia {f : Via → Via} (h : ApartFromIrq f) (src : IrqSource) (s : State) :
    setFlag src (mapVia f s) = mapVia f (setFlag src s) := by
  have hset (v : Via) :
      { f v with ifr := (f v).ifr ||| sourceMask src } = f { v with ifr := v.ifr ||| sourceMask src } := by
    rw [h.ifr v]
    exact (h.setIfr v _).symm
  rw [setFlag, setFlag, ← h.updateIrq_mapVia, mapVia_mapVia, mapVia_mapVia, funext hset]

theorem mapVia_congr {f g : Via → Via} {s : State} (h : f s.via = g s.via) : mapVia f s = mapVia g s :=
  congrArg (fun v => { s with via := v }) h

theorem phaseCompletes_halted {v : Via} (h : v.srActive = false) : phaseCompletes v = false := by
  rw [phaseCompletes, h, Bool.false_and, Bool.false_and]

theorem phaseCompletes_notify {v : Via} (h : v.srPhase = .notify) : phaseCompletes v = false := by
  rw [phaseCompletes, h]
  cases v.srActive <;> rfl

theorem phaseCompletes_eq {v : Via} (hactive : v.srActive = true) (hphase : v.srPhase = .shift) :
    phaseCompletes v = (v.srCount == 7) := by
  rw [phaseCompletes, hactive, hphase]
  rfl

/-- `srDone()` after the eighth shift phase: the flag on the halted register. -/
theorem srDone_eq (s : State) : srDone s = setFlag .sr (mapVia (fun v => { v with srActive := false }) s) := by
  have hapart : ApartFromIrq fun v => { v with srActive := false } := ⟨fun _ _ => rfl, fun _ _ => rfl, fun _ => rfl⟩
  rw [srDone, hapart.setFlag_mapVia]

theorem srStep_shift {s : State} (hactive : s.via.srActive = true) (hphase : s.via.srPhase = .shift) :
    srStep s = if phaseCompletes s.via then setFlag .sr (mapVia onePhase s) else mapVia onePhase s := by
  have hcompletes := phaseCompletes_eq hactive hphase
  have hshift := srShift_eq hactive hphase
  have hstep : srStep s =
      if s.via.srCount + 1 = 8 then srDone (mapVia srShift s) else mapVia srShift s := by
    rw [srStep, hactive, hphase]
    rfl
  rw [hstep, srDone_eq, mapVia_mapVia]
  cases hseven : s.via.srCount == 7
  case true =>
    rw [hcompletes, hseven, if_pos (congrArg (· + 1) (beq_iff_eq.mp hseven)), if_pos rfl]
    rw [hcompletes, hseven] at hshift
    exact congrArg (setFlag .sr) (mapVia_congr hshift)
  case false =>
    have hnot : ¬ s.via.srCount + 1 = 8 := fun h => beq_eq_false_iff_ne.mp hseven (Nat.succ.inj h)
    have hstays : { srShift s.via with srActive := true } = srShift s.via :=
      congrArg (fun active => { srShift s.via with srActive := active }) hactive.symm
    rw [hcompletes, hseven, if_neg hnot, if_neg Bool.false_ne_true]
    rw [hcompletes, hseven] at hshift
    exact mapVia_congr (hstays.symm.trans hshift)

/-- `srStep()` is one phase, and the flag after the eighth transfer (R352, R355). -/
theorem srStep_eq (s : State) :
    srStep s = if phaseCompletes s.via then setFlag .sr (mapVia onePhase s) else mapVia onePhase s := by
  cases hactive : s.via.srActive
  case false =>
    have hsame : mapVia onePhase s = s := mapVia_congr (g := id) (onePhase_halted hactive)
    rw [phaseCompletes_halted hactive, if_neg Bool.false_ne_true, hsame, srStep, hactive, if_neg Bool.false_ne_true]
  case true =>
    cases hphase : s.via.srPhase
    case notify =>
      rw [phaseCompletes_notify hphase, if_neg Bool.false_ne_true, srStep, hactive, hphase]
      exact mapVia_congr (srNotify_eq hactive hphase)
    case shift => exact srStep_shift hactive hphase

theorem srStep_shifter (s : State) : (srStep s).via.shifter = (onePhase s.via).shifter := by
  rw [srStep_eq]
  split
  · rw [setFlag_via]
    rfl
  · rfl

theorem srStep_ifr_sr (s : State) :
    (srStep s).via.ifr.getLsbD 2 = (s.via.ifr.getLsbD 2 || phaseCompletes s.via) := by
  rw [srStep_eq]
  cases phaseCompletes s.via
  case false =>
    rw [if_neg Bool.false_ne_true, mapVia_via, onePhase_ifr, Bool.or_false]
  case true =>
    rw [if_pos rfl, setFlag_ifr_getLsbD, mapVia_via, onePhase_ifr]
    rfl

-- What a phase depends on.

/-- Two VIA records that a phase of the shift register cannot tell apart. -/
structure SameShifter (v w : Via) : Prop where
  mode : srMode w = srMode v
  cb2In : w.cb2In = v.cb2In
  shifter : w.shifter = v.shifter
  flag : w.ifr.getLsbD 2 = v.ifr.getLsbD 2

theorem SameShifter.completes {v w : Via} (h : SameShifter v w) : phaseCompletes w = phaseCompletes v :=
  (congrArg (fun r : Shifter => r.active && r.phase == .shift && r.count == 7) h.shifter :)

theorem SameShifter.onePhase {v w : Via} (h : SameShifter v w) : (onePhase w).shifter = (onePhase v).shifter := by
  obtain ⟨hsr, hcount, hphase, hactive, hcb1, hcb2⟩ := Shifter.mk.inj h.shifter
  have hclock : srClockOut w = srClockOut v := by rw [srClockOut, h.mode, srClockOut]
  cases hact : v.srActive
  case false => rw [onePhase_halted hact, onePhase_halted (hactive.trans hact), h.shifter]
  case true =>
    cases hph : v.srPhase
    case notify =>
      rw [onePhase_notify hact hph, onePhase_notify (hactive.trans hact) (hphase.trans hph)]
      simp only [Via.shifter, hclock, h.mode, hsr, hcount, hactive, hcb1, hcb2]
    case shift =>
      rw [onePhase_shift hact hph, onePhase_shift (hactive.trans hact) (hphase.trans hph)]
      simp only [Via.shifter, hclock, h.mode, h.cb2In, h.completes, hsr, hcount, hcb1, hcb2]

/-- A phase performed or not, from a state that the shift register cannot tell apart from a given record. -/
theorem srStep_ite {v : Via} {u : State} (h : SameShifter v u.via) (c : Prop) [Decidable c] :
    (if c then srStep u else u).via.shifter = (if c then onePhase v else v).shifter ∧
      (if c then srStep u else u).via.ifr.getLsbD 2 = (v.ifr.getLsbD 2 || decide c && phaseCompletes v) := by
  by_cases hc : c
  · rw [if_pos hc, if_pos hc, decide_eq_true hc, Bool.true_and, srStep_shifter, srStep_ifr_sr, h.flag, h.completes]
    exact ⟨h.onePhase, rfl⟩
  · rw [if_neg hc, if_neg hc, decide_eq_false hc, Bool.false_and, Bool.or_false]
    exact ⟨h.shifter, h.flag⟩

/-- The record with the end of a pulse on CB2, as the phase of a tick finds it (R340, R347). -/
def cb2PulseEnded (v : Via) : Via := { v with cb2Out := v.cb2Out || v.cb2Pulse }

/-- The first three parts of a tick leave the shift register alone but for the end of a pulse on CB2. -/
theorem timersTick_sameShifter (s : State) : SameShifter (cb2PulseEnded s.via) (timersTick s).via where
  mode := (congrArg srMode (timersTick_timersOnly s) :)
  cb2In := (congrArg Via.cb2In (timersTick_timersOnly s) :)
  shifter := by
    have htimers : (timersTick s).via.shifter = { s.via.shifter with cb2Out := (timersTick s).via.cb2Out } :=
      (congrArg (fun v => { v.shifter with cb2Out := (timersTick s).via.cb2Out }) (timersTick_timersOnly s) :)
    rw [htimers, timersTick_cb2Out]
    rfl
  flag := timersTick_ifr_sr s

theorem tick_shifter (s : State) :
    (tick s).via.shifter =
        (if tickClocksSr s.via then onePhase (cb2PulseEnded s.via) else cb2PulseEnded s.via).shifter ∧
      (tick s).via.ifr.getLsbD 2 =
        (s.via.ifr.getLsbD 2 || tickClocksSr s.via && phaseCompletes (cb2PulseEnded s.via)) := by
  have hstep := srStep_ite (timersTick_sameShifter s) (tickClocksSr s.via = true)
  rw [Bool.decide_eq_true] at hstep
  rw [tick_eq]
  exact hstep

/-- The edge of CB1 leaves the shift register alone but for the end of a handshake on CB2 (46_via_registers R331). -/
theorem edgeCB1_sameShifter {level : Bool} {s : State} (hmoves : s.via.cb1In ≠ level) :
    SameShifter
      { s.via with
        cb2Out := s.via.cb2Out || decide (level = s.via.pcr.getLsbD 4 ∧ s.via.pcr.toNat / 32 = 4) }
      (edgeCB1 level s).via := by
  unfold edgeCB1
  dsimp only
  split
  · next hactive =>
    have hpolarity : level = s.via.pcr.getLsbD 4 := (activeEdge_eq_true_iff.mp hactive).2
    have hreleased : decide (level = s.via.pcr.getLsbD 4 ∧ s.via.pcr.toNat / 32 = 4) = (s.via.pcr.toNat / 32 == 4) := by
      rw [beq_eq_decide, decide_eq_decide]
      exact and_iff_right hpolarity
    rw [hreleased]
    have hflag := setFlag_ifr_other (src := .cb1) (i := 2) (by decide)
    refine ⟨?_, ?_, ?_, hflag _⟩
    all_goals
      rw [mapVia_via, setFlag_via]
      rfl
  · next hinactive =>
    have hkept : decide (level = s.via.pcr.getLsbD 4 ∧ s.via.pcr.toNat / 32 = 4) = false :=
      decide_eq_false fun h => hinactive (activeEdge_eq_true_iff.mpr ⟨hmoves, h.1⟩)
    rw [hkept, Bool.or_false]
    exact ⟨rfl, rfl, rfl, rfl⟩

theorem setCB1_shifter {level : Bool} {s : State} (hmoves : s.via.cb1In ≠ level) :
    let external := srMode s.via = 3 ∨ srMode s.via = 7
    let released := level = s.via.pcr.getLsbD 4 ∧ s.via.pcr.toNat / 32 = 4
    let v := { s.via with cb2Out := s.via.cb2Out || decide released }
    (setCB1 level s).via.shifter = (if external then onePhase v else v).shifter ∧
      (setCB1 level s).via.ifr.getLsbD 2 = (v.ifr.getLsbD 2 || decide external && phaseCompletes v) := by
  intro external released v
  have hstep : setCB1 level s = if external then srStep (edgeCB1 level s) else edgeCB1 level s := by
    rw [setCB1_eq]
    exact if_congr (and_iff_right hmoves) rfl rfl
  rw [hstep]
  exact srStep_ite (edgeCB1_sameShifter hmoves) external

end Sys2Proof.Machine
end

section
/-! PROOF. Eight bits through the shift register (47_via_tick R352 to R356): its phases as a function of its own fields and of
the bit taken in, what it holds after a number of transfers, and so the transfers in under CB1. -/

namespace Sys2Proof.Machine

-- The register and its phases.

/-- The shift register without the lines it drives, and its flag. -/
structure ShiftRegister where
  sr : Byte
  count : Nat
  phase : SrPhase
  active : Bool
  flag : Bool

def Via.shiftRegister (v : Via) : ShiftRegister := ⟨v.sr, v.srCount, v.srPhase, v.srActive, v.ifr.getLsbD 2⟩

/-- The bit that a shift phase takes in: bit 7 shifting out, the CB2 input shifting in (R352). -/
def bitTakenIn (v : Via) : Bool := if 4 ≤ srMode v then decide (128 ≤ v.sr.toNat) else v.cb2In

namespace ShiftRegister

/-- The shift phase: one bit taken in; the eighth raises the flag and halts. -/
def transfer (bit : Bool) (r : ShiftRegister) : ShiftRegister where
  sr := BitVec.ofNat 8 (r.sr.toNat * 2 + bitNat bit)
  count := r.count + 1
  phase := .notify
  active := !(r.count == 7)
  flag := r.flag || r.count == 7

/-- One phase (R352). -/
def next (bit : Bool) (r : ShiftRegister) : ShiftRegister :=
  match r.active, r.phase with
  | false, _ => r
  | true, .notify => { r with phase := .shift }
  | true, .shift => r.transfer bit

variable (bit : Bool) {r : ShiftRegister}

theorem next_halted (h : r.active = false) : r.next bit = r := by
  unfold next
  rw [h]

theorem next_notify (hactive : r.active = true) (hphase : r.phase = .notify) :
    r.next bit = { r with phase := .shift } := by
  unfold next
  rw [hactive, hphase]

theorem next_shift (hactive : r.active = true) (hphase : r.phase = .shift) : r.next bit = r.transfer bit := by
  unfold next
  rw [hactive, hphase]

/-- Two phases are the transfer of one bit, the one at the second. -/
theorem next_next (first : Bool) (hactive : r.active = true) (hphase : r.phase = .notify) :
    (r.next first).next bit = r.transfer bit := by
  rw [next_notify first hactive hphase]
  exact next_shift bit (r := { r with phase := .shift }) hactive rfl

end ShiftRegister

theorem shiftRegister_of_phase {v w : Via} (hshifter : w.shifter = (onePhase v).shifter)
    (hflag : w.ifr.getLsbD 2 = (v.ifr.getLsbD 2 || phaseCompletes v)) :
    w.shiftRegister = v.shiftRegister.next (bitTakenIn v) := by
  have hfields : w.shiftRegister =
      ⟨w.shifter.sr, w.shifter.count, w.shifter.phase, w.shifter.active, w.ifr.getLsbD 2⟩ := rfl
  rw [hfields, hshifter, hflag]
  cases hactive : v.srActive
  case false =>
    rw [ShiftRegister.next_halted _ hactive, onePhase_halted hactive, phaseCompletes_halted hactive, Bool.or_false]
    rfl
  case true =>
    cases hphase : v.srPhase
    case notify =>
      rw [ShiftRegister.next_notify _ hactive hphase, onePhase_notify hactive hphase, phaseCompletes_notify hphase,
        Bool.or_false]
      rfl
    case shift =>
      rw [ShiftRegister.next_shift _ hactive hphase, onePhase_shift hactive hphase, phaseCompletes_eq hactive hphase]
      rfl

-- What the register holds after a number of transfers.

theorem extractLsb'_append_ofBool_getLsbD (m : Byte) (b : Bool) {i : Nat} (hi : i < 8) :
    (m.extractLsb' 0 7 ++ BitVec.ofBool b).getLsbD i = if i = 0 then b else m.getLsbD (i - 1) := by
  rw [BitVec.getLsbD_append, BitVec.getLsbD_extractLsb']
  cases i with
  | zero => simp
  | succ k =>
    have hk : k < 7 := by omega
    simp [hk]

/-- The register after `n` transfers from an armed one that held `m`: the bits taken in below those of `m` that are left, halted
with its flag after the eighth. -/
structure Transferred (m : Byte) (taken : Nat → Bool) (n : Nat) (r : ShiftRegister) : Prop where
  count : r.count = n
  phase : r.phase = .notify
  active : r.active = decide (n < 8)
  flag : r.flag = decide (8 ≤ n)
  bits : ∀ i < 8, r.sr.getLsbD i = if i < n then taken (n - 1 - i) else m.getLsbD (i - n)

theorem Transferred.transfer {m : Byte} {taken : Nat → Bool} {n : Nat} {r : ShiftRegister}
    (h : Transferred m taken n r) (hn : n < 8) : Transferred m taken (n + 1) (r.transfer (taken n)) where
  count := congrArg (· + 1) h.count
  phase := rfl
  active := by
    rw [ShiftRegister.transfer, h.count, beq_eq_decide, ← decide_not, decide_eq_decide]
    omega
  flag := by
    rw [ShiftRegister.transfer, h.count, h.flag, beq_eq_decide, ← Bool.decide_or, decide_eq_decide]
    omega
  bits := by
    intro i hi
    rw [ShiftRegister.transfer, ← extractLsb'_append_ofBool, extractLsb'_append_ofBool_getLsbD _ _ hi]
    cases i with
    | zero => simp
    | succ k =>
      have hcond : k + 1 < n + 1 ↔ k < n := Nat.succ_lt_succ_iff
      have htaken : n + 1 - 1 - (k + 1) = n - 1 - k := by omega
      have hleft : k + 1 - (n + 1) = k - n := by omega
      rw [if_neg (Nat.succ_ne_zero k), Nat.add_sub_cancel, h.bits k (by omega), htaken, hleft, if_congr hcond rfl rfl]

-- Under CB1.

theorem setCB1_shiftRegister {level : Bool} {s : State} (hmoves : s.via.cb1In ≠ level)
    (hmode : srMode s.via = 3 ∨ srMode s.via = 7) :
    (setCB1 level s).via.shiftRegister = s.via.shiftRegister.next (bitTakenIn s.via) := by
  obtain ⟨hshifter, hflag⟩ := setCB1_shifter hmoves
  rw [if_pos hmode] at hshifter
  rw [decide_eq_true hmode, Bool.true_and] at hflag
  have hnext := shiftRegister_of_phase hshifter hflag
  exact hnext

theorem edgeCB1_cb1In (level : Bool) (s : State) : (edgeCB1 level s).via.cb1In = level := by
  unfold edgeCB1
  dsimp only
  split
  · rw [mapVia_via, setFlag_via]
    rfl
  · rfl

theorem setCB1_shifterOnly (level : Bool) (s : State) : ShifterOnly (edgeCB1 level s).via (setCB1 level s).via := by
  rw [setCB1_eq]
  split
  · exact srStep_shifterOnly _
  · rfl

theorem setCB1_cb1In (level : Bool) (s : State) : (setCB1 level s).via.cb1In = level :=
  (congrArg Via.cb1In (setCB1_shifterOnly level s) :).trans (edgeCB1_cb1In level s)

theorem setCB1_srMode (level : Bool) (s : State) : srMode (setCB1 level s).via = srMode s.via := by
  have hacr : (setCB1 level s).via.acr = s.via.acr :=
    (congrArg Via.acr (setCB1_shifterOnly level s) :).trans (edgeCB1_acr level s)
  rw [srMode, hacr, srMode]

/-- CB2 as an input changes its own level and flag alone. -/
theorem setCB2_irqOnly (level : Bool) (s : State) : IrqOnly { s.via with cb2In := level } (setCB2 level s).via := by
  rw [setCB2_eq]
  split
  · exact setFlag_irqOnly .cb2 _
  · rfl

theorem setCB2_shiftRegister (level : Bool) (s : State) :
    (setCB2 level s).via.shiftRegister = s.via.shiftRegister := by
  have hflag : (setCB2 level s).via.ifr.getLsbD 2 = s.via.ifr.getLsbD 2 := by
    rw [setCB2_eq]
    split
    · exact setFlag_ifr_other (by decide) _
    · rfl
  rw [Via.shiftRegister, hflag, setCB2_irqOnly level s]
  rfl

theorem setCB2_srMode (level : Bool) (s : State) : srMode (setCB2 level s).via = srMode s.via := by
  rw [setCB2_irqOnly level s]
  rfl

theorem serialBit_srMode (b : Bool) (s : State) : srMode (serialBit b s).via = srMode s.via := by
  rw [serialBit, setCB1_srMode, setCB2_srMode, setCB1_srMode]

theorem serialBit_cb1In (b : Bool) (s : State) : (serialBit b s).via.cb1In = s.via.cb1In := setCB1_cb1In _ _

/-- The three events of a bit in mode 0b011: a notify phase, the level, and the shift phase that takes it in. -/
theorem serialBit_shiftRegister {b : Bool} {s : State} (hmode : srMode s.via = 3) (hactive : s.via.srActive = true)
    (hphase : s.via.srPhase = .notify) :
    (serialBit b s).via.shiftRegister = s.via.shiftRegister.transfer b := by
  have hlevel := setCB2_irqOnly b (setCB1 (!s.via.cb1In) s)
  have hmode' : srMode (setCB2 b (setCB1 (!s.via.cb1In) s)).via = 3 := by
    rw [setCB2_srMode, setCB1_srMode, hmode]
  have hback : (setCB2 b (setCB1 (!s.via.cb1In) s)).via.cb1In ≠ s.via.cb1In := by
    rw [hlevel, setCB1_cb1In]
    exact Bool.not_ne_self _
  have hbit : bitTakenIn (setCB2 b (setCB1 (!s.via.cb1In) s)).via = b := by
    rw [bitTakenIn, hmode', if_neg (by decide), hlevel]
  rw [serialBit, setCB1_shiftRegister hback (Or.inl hmode'), hbit, setCB2_shiftRegister,
    setCB1_shiftRegister (Bool.self_ne_not _) (Or.inl hmode), ShiftRegister.next_next b _ hactive hphase]

/-- A change of CB1 leaves a halted register. -/
theorem setCB1_halted (level : Bool) {s : State} (hmode : srMode s.via = 3) (hhalted : s.via.srActive = false) :
    (setCB1 level s).via.shiftRegister = s.via.shiftRegister := by
  by_cases hmoves : s.via.cb1In = level
  · rw [← hmoves, setCB1_same]
  · rw [setCB1_shiftRegister hmoves (Or.inl hmode), ShiftRegister.next_halted _ hhalted]

/-- A change of CB1 that finds the register between two bits raises no flag. -/
theorem setCB1_notify_flag {s : State} (hmode : srMode s.via = 3) (hactive : s.via.srActive = true)
    (hphase : s.via.srPhase = .notify) :
    (setCB1 (!s.via.cb1In) s).via.ifr.getLsbD 2 = s.via.ifr.getLsbD 2 := by
  have hnext := setCB1_shiftRegister (Bool.self_ne_not _) (Or.inl hmode)
  rw [ShiftRegister.next_notify _ hactive hphase] at hnext
  exact congrArg ShiftRegister.flag hnext

/-- The state after the first bits of a transfer in under CB1. -/
structure SerialIn (s : State) (bits : List Bool) (n : Nat) (t : State) : Prop where
  mode : srMode t.via = 3
  line : t.via.cb1In = s.via.cb1In
  register : Transferred s.via.sr (fun k => bits.getD k false) n t.via.shiftRegister

theorem serialIn_take {s : State} {bits : List Bool} (h : SerialIn s bits 0 s) (hlength : bits.length = 8) (n : Nat)
    (hn : n ≤ 8) : SerialIn s bits n ((bits.take n).foldl (fun u b => serialBit b u) s) := by
  induction n with
  | zero => exact h
  | succ n ih =>
    have hlt : n < bits.length := by omega
    obtain ⟨hmode, hline, hregister⟩ := ih (by omega)
    have hactive := hregister.active.trans (decide_eq_true hn)
    rw [List.take_succ_eq_append_getElem hlt, List.foldl_append, List.foldl_cons, List.foldl_nil]
    refine ⟨(serialBit_srMode _ _).trans hmode, (serialBit_cb1In _ _).trans hline, ?_⟩
    rw [serialBit_shiftRegister hmode hactive hregister.phase, ← List.getD_eq_getElem bits false hlt]
    exact hregister.transfer hn

/-- Settles O55: each `serialBit` is a transfer, and after the eighth no change of CB1 moves the register. -/
theorem shiftInUnderCB1 : Obligations.ShiftInUnderCB1 := by
  intro s bits hmode hactive hcount hphase hflag hlength t
  have hstart : SerialIn s bits 0 s := ⟨hmode, rfl, ⟨hcount, hphase, hactive, hflag, fun _ _ => rfl⟩⟩
  have hprefix := serialIn_take hstart hlength
  have hend : SerialIn s bits 8 t := by
    have hall := hprefix 8 (Nat.le_refl 8)
    rwa [List.take_of_length_le hlength.le] at hall
  have hhalted : t.via.srActive = false := hend.register.active
  refine ⟨fun j hj => ?bit, hend.register.flag, hhalted, fun k hk => ?before, fun level => ?after⟩
  case bit => exact (hend.register.bits j hj).trans (if_pos hj)
  case before =>
    obtain ⟨hmode, hline, hregister⟩ := hprefix k (Nat.le_of_lt hk)
    have hlow := hregister.flag.trans (decide_eq_false (Nat.not_le.mpr hk))
    have hrunning := hregister.active.trans (decide_eq_true hk)
    refine ⟨hlow, ?_⟩
    rw [← hline]
    exact (setCB1_notify_flag hmode hrunning hregister.phase).trans hlow
  case after =>
    obtain ⟨hsr, hcount, hphase, hactive, -⟩ := ShiftRegister.mk.inj (setCB1_halted level hend.mode hhalted)
    exact ⟨hsr, hcount, hphase, hactive.trans hhalted⟩

end Sys2Proof.Machine
end

section
/-! PROOF. A byte shifted out at every tick (47_via_tick R351 to R355), and the clocking of the shift register in every mode. -/

namespace Sys2Proof.Machine

-- One tick in mode 0b110.

theorem tickClocksSr_modeSix {v : Via} (hmode : srMode v = 6) : tickClocksSr v = true := by
  rw [tickClocksSr, hmode]
  rfl

theorem srClockOut_modeSix {v : Via} (hmode : srMode v = 6) : srClockOut v = true := by
  rw [srClockOut, hmode]
  rfl

theorem tick_srMode (s : State) : srMode (tick s).via = srMode s.via := by
  rw [srMode, tick_acr, srMode]

theorem ticks_srMode (n : Nat) (s : State) : srMode (ticks n s).via = srMode s.via := by
  rw [srMode, ticks_acr, srMode]

/-- A tick in mode 0b110 is a phase (R351). -/
theorem tick_modeSix {s : State} (hmode : srMode s.via = 6) :
    (tick s).via.shifter = (onePhase (cb2PulseEnded s.via)).shifter ∧
      (tick s).via.ifr.getLsbD 2 = (s.via.ifr.getLsbD 2 || phaseCompletes (cb2PulseEnded s.via)) := by
  have hphase := tick_shifter s
  rwa [tickClocksSr_modeSix hmode, if_pos rfl, Bool.true_and] at hphase

theorem tick_shiftRegister {s : State} (hmode : srMode s.via = 6) :
    (tick s).via.shiftRegister = s.via.shiftRegister.next (decide (128 ≤ s.via.sr.toNat)) := by
  obtain ⟨hshifter, hflag⟩ := tick_modeSix hmode
  have hbit : bitTakenIn (cb2PulseEnded s.via) = decide (128 ≤ s.via.sr.toNat) := if_pos (hmode.symm ▸ by decide)
  rw [← hbit]
  exact shiftRegister_of_phase (v := cb2PulseEnded s.via) hshifter hflag

/-- No tick moves a halted register, in any mode (R352). -/
theorem tick_shiftRegister_halted {s : State} (hhalted : s.via.srActive = false) :
    (tick s).via.shiftRegister = s.via.shiftRegister := by
  have hhalted' : (cb2PulseEnded s.via).srActive = false := hhalted
  obtain ⟨hshifter, hflag⟩ := tick_shifter s
  rw [onePhase_halted hhalted', ite_self] at hshifter
  rw [phaseCompletes_halted hhalted', Bool.and_false, Bool.or_false] at hflag
  obtain ⟨hsr, hcount, hphase, hactive, -, -⟩ := Shifter.mk.inj hshifter
  rw [Via.shiftRegister, hsr, hcount, hphase, hactive, hflag]
  rfl

theorem ticks_shiftRegister_halted {s : State} (hhalted : s.via.srActive = false) (n : Nat) :
    (ticks n s).via.shiftRegister = s.via.shiftRegister :=
  ticks_keep (P := fun u => u.via.shiftRegister = s.via.shiftRegister)
    (fun _ hu => (tick_shiftRegister_halted ((congrArg ShiftRegister.active hu).trans hhalted)).trans hu) n rfl

/-- The notify phase presents bit 7 while it lowers the clock (R352). -/
theorem tick_notify_outputs {s : State} (hmode : srMode s.via = 6) (hactive : s.via.srActive = true)
    (hphase : s.via.srPhase = .notify) :
    (tick s).via.cb2Out = s.via.sr.getLsbD 7 ∧ (tick s).via.cb1Out = false := by
  obtain ⟨hshifter, -⟩ := tick_modeSix hmode
  have hclock : srClockOut (cb2PulseEnded s.via) = true := srClockOut_modeSix hmode
  have hout : 4 ≤ srMode (cb2PulseEnded s.via) := hmode.symm ▸ by decide
  rw [onePhase_notify (v := cb2PulseEnded s.via) hactive hphase, hclock, if_pos hout, Bool.not_true, Bool.and_false]
    at hshifter
  obtain ⟨-, -, -, -, hcb1, hcb2⟩ := Shifter.mk.inj hshifter
  exact ⟨hcb2.trans (getLsbD_seven_eq_decide s.via.sr).symm, hcb1⟩

/-- The shift phase raises the clock (R352). -/
theorem tick_shift_cb1Out {s : State} (hmode : srMode s.via = 6) (hactive : s.via.srActive = true)
    (hphase : s.via.srPhase = .shift) : (tick s).via.cb1Out = true := by
  obtain ⟨hshifter, -⟩ := tick_modeSix hmode
  have hclock : srClockOut (cb2PulseEnded s.via) = true := srClockOut_modeSix hmode
  rw [onePhase_shift (v := cb2PulseEnded s.via) hactive hphase, hclock, Bool.or_true] at hshifter
  exact congrArg Shifter.cb1Out hshifter

-- The byte.

/-- Shifting out, the bits taken back in are those of the byte, from bit 7 down. -/
def bitsDown (m : Byte) (k : Nat) : Bool := m.getLsbD (7 - k)

theorem Transferred.sr_bit_seven {m : Byte} {taken : Nat → Bool} {n : Nat} {r : ShiftRegister}
    (h : Transferred m taken n r) (hn : n < 8) : r.sr.getLsbD 7 = bitsDown m n := by
  rw [h.bits 7 (by decide), if_neg (by omega), bitsDown]

/-- After the eighth transfer the byte is back in place. -/
theorem Transferred.sr_back {m : Byte} {r : ShiftRegister} (h : Transferred m (bitsDown m) 8 r) : r.sr = m := by
  apply BitVec.eq_of_getLsbD_eq
  intro i hi
  have hplace : 7 - (8 - 1 - i) = i := by omega
  rw [h.bits i hi, if_pos hi, bitsDown, hplace]

/-- An odd tick is the notify phase of a bit; the tick after it is the shift phase that takes bit 7 back in. -/
theorem ticks_transferred {s : State} (hmode : srMode s.via = 6)
    (hstart : Transferred s.via.sr (bitsDown s.via.sr) 0 s.via.shiftRegister) (n : Nat) (hn : n ≤ 8) :
    Transferred s.via.sr (bitsDown s.via.sr) n (ticks (2 * n) s).via.shiftRegister := by
  induction n with
  | zero => exact hstart
  | succ n ih =>
    have h := ih (Nat.le_of_succ_le hn)
    have hactive := h.active.trans (decide_eq_true hn)
    have hodd := tick_shiftRegister ((ticks_srMode (2 * n) s).trans hmode)
    have heven := tick_shiftRegister ((ticks_srMode (2 * n + 1) s).trans hmode)
    have hkept : (tick (ticks (2 * n) s)).via.sr = (ticks (2 * n) s).via.sr := by
      rw [ShiftRegister.next_notify _ hactive h.phase] at hodd
      exact congrArg ShiftRegister.sr hodd
    rw [ticks_succ, hodd, ShiftRegister.next_next _ _ hactive h.phase, hkept, ← getLsbD_seven_eq_decide] at heven
    have hbit : (ticks (2 * n) s).via.sr.getLsbD 7 = bitsDown s.via.sr n := h.sr_bit_seven hn
    rw [Nat.mul_add_one, ticks_succ, ticks_succ, heven, hbit]
    exact h.transfer hn

/-- Settles O56: the phase, when a tick and a change of CB1 perform it, and the sixteen ticks of a byte shifted out. -/
theorem shiftRegisterClocking : Obligations.ShiftRegisterClocking := by
  refine ⟨srStep_eq, tick_shifter, fun level s hmoves => setCB1_shifter hmoves,
    fun s hmode hactive hcount hphase hflag => ?_⟩
  have hstart : Transferred s.via.sr (bitsDown s.via.sr) 0 s.via.shiftRegister :=
    ⟨hcount, hphase, hactive, hflag, fun _ _ => rfl⟩
  have hbefore := ticks_transferred hmode hstart
  refine ⟨fun j hj => ?bit, fun n => ?halted⟩
  case bit =>
    have h := hbefore j (Nat.le_of_lt hj)
    have hmode' := (ticks_srMode (2 * j) s).trans hmode
    have hrunning := h.active.trans (decide_eq_true hj)
    obtain ⟨hcb2, hcb1⟩ := tick_notify_outputs hmode' hrunning h.phase
    have hodd := tick_shiftRegister hmode'
    rw [ShiftRegister.next_notify _ hrunning h.phase] at hodd
    obtain ⟨-, -, hshift, hstill, hlow⟩ := ShiftRegister.mk.inj hodd
    rw [ticks_succ, ticks_succ (2 * j + 1), ticks_succ]
    refine ⟨hcb2.trans (h.sr_bit_seven hj), hcb1, ?_, ?_⟩
    · exact tick_shift_cb1Out ((tick_srMode _).trans hmode') (hstill.trans hrunning) hshift
    · exact hlow.trans (h.flag.trans (decide_eq_false (Nat.not_le.mpr hj)))
  case halted =>
    have h := hbefore 8 (Nat.le_refl 8)
    rw [ticks_add]
    obtain ⟨hsr, -, -, hactive, hflag⟩ := ShiftRegister.mk.inj (ticks_shiftRegister_halted h.active n)
    exact ⟨hsr.trans h.sr_back, hactive.trans h.active, hflag.trans h.flag⟩

end Sys2Proof.Machine
end

section
/-! PROOF. The instruction boundary (60_exceptions R400): the arm that each state of the latches selects, what taking a
reset, waiting and an entry leave, and the ticks a step owes. -/

namespace Sys2Proof.Machine

-- The six arms.

section Arms

variable {s : State}

theorem boundaryArm_of_halted (hreset : s.req.resetPending = false) (hhalt : s.req.haltActive = true) :
    boundaryArm s = .halted := by
  simp [boundaryArm, hreset, hhalt]

variable (hreset : s.req.resetPending = false) (hhalt : s.req.haltActive = false)

include hreset hhalt

theorem boundaryArm_of_waiting (hwait : s.req.waitActive = true) : boundaryArm s = .waiting := by
  simp [boundaryArm, hreset, hhalt, hwait]

variable (hwait : s.req.waitActive = false)

include hwait

theorem boundaryArm_of_nmi (hnmi : s.req.nmiPending = true) : boundaryArm s = .nmi := by
  simp [boundaryArm, hreset, hhalt, hwait, hnmi]

theorem boundaryArm_of_irq (hnmi : s.req.nmiPending = false) (hirq : s.req.irqPending = true)
    (hi : s.cpu.i = false) : boundaryArm s = .irq := by
  simp [boundaryArm, hreset, hhalt, hwait, hnmi, hirq, hi]

theorem boundaryArm_of_no_request (hnmi : s.req.nmiPending = false)
    (hirq : s.req.irqPending = false ∨ s.cpu.i = true) : boundaryArm s = .instruction := by
  rcases hirq with hirq | hi
  · simp [boundaryArm, hreset, hhalt, hwait, hnmi, hirq]
  · simp [boundaryArm, hreset, hhalt, hwait, hnmi, hi]

end Arms

-- What each arm leaves.

/-- The reads of the vector do not look at I, so it can be set after them (R401). -/
theorem takeReset_eq (s : State) :
    let s1 : State :=
      { s with req := { s.req with resetPending := false, waitActive := false, nmiPending := false } }
    let w := load16 s.cfg.vecReset s1
    takeReset s = { w.2 with cpu := { s.cpu with i := true, pc := w.1 }, clock := 0 } := by
  intro s1 w
  have hvector : load16 s.cfg.vecReset (onCpu (fun k => { k with i := true }) s1) =
      (w.1, onCpu (fun k => { k with i := true }) w.2) := load16_onCpu _ _ _
  have hcpu : w.2.cpu = s.cpu := (load16_viaOnly s.cfg.vecReset s1).cpu
  have htaken := congrArg
    (fun r : Word × State => { r.2 with cpu := { r.2.cpu with pc := r.1 }, clock := 0 }) hvector
  rw [← hcpu]
  exact htaken

theorem takeReset_cfg (s : State) : (takeReset s).cfg = s.cfg := (load16_viaOnly s.cfg.vecReset _).cfg

theorem takeNmi_eq_entered (s : State) :
    takeNmi s = entered s.cfg.vecNmi s.cfg.intEntryCycles { s with req := { s.req with nmiPending := false } } :=
  enterThroughVector_eq_entered _ _ _

theorem takeIrq_eq_entered (s : State) : takeIrq s = entered s.cfg.vecIrq s.cfg.intEntryCycles s :=
  enterThroughVector_eq_entered _ _ _

theorem takeNmi_cost (s : State) :
    (takeNmi s).cfg = s.cfg ∧ (takeNmi s).clock = s.clock + s.cfg.intEntryCycles :=
  enterThroughVector_cost _ _ { s with req := { s.req with nmiPending := false } }

theorem takeIrq_cost (s : State) :
    (takeIrq s).cfg = s.cfg ∧ (takeIrq s).clock = s.clock + s.cfg.intEntryCycles := enterThroughVector_cost _ _ s

theorem waitStep_of_nmi {s : State} (hnmi : s.req.nmiPending = true) : waitStep s = takeNmi (leaveWait s) := by
  rw [waitStep, if_pos hnmi]

theorem waitStep_of_irq {s : State} (hnmi : s.req.nmiPending = false) (hirq : s.req.irqPending = true)
    (hi : s.cpu.i = false) : waitStep s = takeIrq (leaveWait s) := by
  simp [waitStep, hnmi, hirq, hi]

theorem waitStep_of_no_request {s : State} (hnmi : s.req.nmiPending = false)
    (hirq : s.req.irqPending = false ∨ s.cpu.i = true) : waitStep s = addCost 1 s := by
  rcases hirq with hirq | hi
  · simp [waitStep, hnmi, hirq]
  · simp [waitStep, hnmi, hi]

/-- The clocks of the wait step: an entry, or one idle poll (R402). -/
def waitCost (s : State) : Nat :=
  if s.req.nmiPending ∨ (s.req.irqPending ∧ ¬s.cpu.i) then s.cfg.intEntryCycles else 1

theorem waitStep_cost (s : State) : (waitStep s).cfg = s.cfg ∧ (waitStep s).clock = s.clock + waitCost s := by
  unfold waitStep waitCost
  by_cases hnmi : s.req.nmiPending = true
  · rw [if_pos hnmi, if_pos (.inl hnmi)]
    exact takeNmi_cost (leaveWait s)
  · by_cases hirq : s.req.irqPending = true ∧ ¬s.cpu.i = true
    · rw [if_neg hnmi, if_pos (by simpa using hirq), if_pos (.inr hirq)]
      exact takeIrq_cost (leaveWait s)
    · rw [if_neg hnmi, if_neg (by simpa using hirq), if_neg (not_or.mpr ⟨hnmi, hirq⟩)]
      exact ⟨rfl, rfl⟩

-- The cost of a step.

/-- The clocks a CPU step adds, by the arm it takes (30_encoding R108, R401, R402, R404, R414). -/
def stepCost (s : State) : Nat :=
  match boundaryArm s with
  | .reset | .halted => 0
  | .waiting => waitCost s
  | .nmi | .irq => s.cfg.intEntryCycles
  | .instruction => instrCost s.cfg (fetchInstr s).1

/-- The fetch is free: its instruction is charged after it. -/
theorem fetchInstr_sameClock (s : State) : SameClock s (fetchInstr s).2 := by
  obtain ⟨-, hstate⟩ := fetchInstr_reads s
  rw [hstate]
  exact (SameClock.of_viaOnly (loadRun_viaOnly _ s)).onCpu fun _ => _

/-- Every CPU step answers a next state, whose clock is 0 after a reset and else later by the cost of the step. -/
theorem cpuStep_cost (s : State) :
    ∃ u, cpuStep s = .next u ∧ u.cfg = s.cfg ∧
      u.clock = if boundaryArm s = .reset then 0 else s.clock + stepCost s := by
  unfold cpuStep stepCost
  cases boundaryArm s with
  | reset => exact ⟨_, rfl, takeReset_cfg s, rfl⟩
  | halted => exact ⟨_, rfl, rfl, rfl⟩
  | waiting => exact ⟨_, rfl, waitStep_cost s⟩
  | nmi => exact ⟨_, rfl, takeNmi_cost s⟩
  | irq => exact ⟨_, rfl, takeIrq_cost s⟩
  | instruction =>
    obtain ⟨hcfg, hclock⟩ := fetchInstr_sameClock s
    have hexec := exec_cost (fetchInstr s).1 (fetchInstr s).2
    rw [hcfg, hclock] at hexec
    exact hexec

/-- The ticks of a step are its cost, for a reset too, which costs 0 and sets the clock to 0 (70_reset_and_hazards R452). -/
theorem step_ticks_stepCost {s u : State} (h : cpuStep s = .next u)
    (hclock : u.clock = if boundaryArm s = .reset then 0 else s.clock + stepCost s) :
    step s = .next (ticks (stepCost s) u) := by
  have howed : u.clock - s.clock = stepCost s := by
    by_cases hreset : boundaryArm s = .reset
    · rw [hclock, if_pos hreset, stepCost, hreset, Nat.zero_sub]
    · rw [hclock, if_neg hreset, Nat.add_sub_cancel_left]
  rw [step_of_cpuStep h, howed]

/-- A step that adds `n` clocks owes `n` ticks. -/
theorem step_of_cpuStep_clock {s t : State} {n : Nat} (h : cpuStep s = .next t) (hclock : t.clock = s.clock + n) :
    step s = .next (ticks n t) := by
  rw [step_of_cpuStep h, hclock, Nat.add_sub_cancel_left]

theorem step_of_halted {s : State} (h : boundaryArm s = .halted) : step s = .next s := by
  have hcpu : cpuStep s = .next s := by rw [cpuStep, h]
  exact step_of_cpuStep_clock (n := 0) hcpu rfl

theorem step_of_waiting {s : State} (h : boundaryArm s = .waiting) {t : State} {n : Nat} (ht : waitStep s = t)
    (hclock : t.clock = s.clock + n) : step s = .next (ticks n t) := by
  have hcpu : cpuStep s = .next t := by rw [cpuStep, h, ht]
  exact step_of_cpuStep_clock hcpu hclock

-- The batch call.

/-- A step that takes a reset or is halted ends an `execute` call that has clocks left, with overrun 0 (R427). -/
theorem executeBatch_stops {s t : State} (hstep : step s = .next t)
    (harm : boundaryArm s = .reset ∨ boundaryArm s = .halted) (target : Nat) :
    executeBatch (target + 1) s = .returned 0 t := by
  have hleft : s.clock - s.clock < target + 1 := by omega
  rw [executeBatch, executeLoop, if_pos hleft, hstep]
  exact if_pos harm

/-- Settles O7: the reads of the vector commute with setting I, and a taken reset ends the call. -/
theorem resetIsTaken : Obligations.ResetIsTaken := by
  intro s hreset
  have hstep := step_of_resetPending hreset
  rw [takeReset_eq] at hstep
  have harm : boundaryArm s = .reset := by rw [boundaryArm, if_pos hreset]
  exact ⟨hstep, executeBatch_stops hstep (.inl harm)⟩

/-- Settles O8: the halted arm, and the three branches of the wait step. -/
theorem haltedAndWaitingSteps : Obligations.HaltedAndWaitingSteps := by
  refine fun s hreset => ⟨fun hhalt => ?halted, fun hhalt hwait => ?waiting⟩
  case halted =>
    have harm := boundaryArm_of_halted hreset hhalt
    exact ⟨step_of_halted harm, executeBatch_stops (step_of_halted harm) (.inr harm)⟩
  case waiting =>
    have harm := boundaryArm_of_waiting hreset hhalt hwait
    refine ⟨fun hnmi => ?nmi, fun hnmi hirq hi => ?irq, fun hnmi hnone => ?idle⟩
    case nmi => exact step_of_waiting harm ((waitStep_of_nmi hnmi).trans (takeNmi_eq_entered (leaveWait s))) rfl
    case irq => exact step_of_waiting harm ((waitStep_of_irq hnmi hirq hi).trans (takeIrq_eq_entered (leaveWait s))) rfl
    case idle => exact step_of_waiting (n := 1) harm (waitStep_of_no_request hnmi hnone) rfl

/-- Settles O9: the three arms of normal running, the entries in the terms of the statement. -/
theorem interruptsAtTheBoundary : Obligations.InterruptsAtTheBoundary := by
  refine ⟨rfl, fun s hreset hhalt hwait => ⟨fun hnmi => ?nmi, fun hnmi hirq hi => ?irq,
    boundaryArm_of_no_request hreset hhalt hwait⟩⟩
  case nmi =>
    have hcpu : cpuStep s = .next (takeNmi s) := by rw [cpuStep, boundaryArm_of_nmi hreset hhalt hwait hnmi]
    rw [takeNmi_eq_entered] at hcpu
    exact step_of_cpuStep_clock hcpu rfl
  case irq =>
    have hcpu : cpuStep s = .next (takeIrq s) := by rw [cpuStep, boundaryArm_of_irq hreset hhalt hwait hnmi hirq hi]
    rw [takeIrq_eq_entered] at hcpu
    exact step_of_cpuStep_clock hcpu rfl

/-- Settles O11: the state and the cost are those of `cpuStep_cost`, and the cost by arm is `stepCost`. -/
theorem everyStepTicksItsCost : Obligations.EveryStepTicksItsCost := by
  intro s
  obtain ⟨u, hu, -, hclock⟩ := cpuStep_cost s
  refine ⟨u, stepCost s, hu, step_ticks_stepCost hu hclock, hclock, ?_⟩
  cases harm : boundaryArm s with
  | reset => simp only [stepCost, harm]
  | halted =>
    rw [cpuStep, harm] at hu
    exact ⟨by simp only [stepCost, harm], (Host.Outcome.next.inj hu).symm⟩
  | waiting => simp only [stepCost, harm, waitCost]
  | nmi => simp only [stepCost, harm]
  | irq => simp only [stepCost, harm]
  | instruction =>
    simp only [stepCost, harm]
    exact ⟨_, rfl, rfl⟩

end Sys2Proof.Machine
end

section
/-! PROOF. The batch call `execute(target)` (60_exceptions R427): each step that neither takes a reset nor is halted costs
at least one clock, so the bound on the loop is enough. -/

namespace Sys2Proof.Machine

-- No step is free.

/-- No cost among the parameters is 0. -/
structure CostsPositive (cfg : Config) : Prop where
  opcode : ∀ op, 0 < cyclesOf cfg op
  entry : 0 < cfg.intEntryCycles

theorem CostsPositive.instrCost {cfg : Config} (h : CostsPositive cfg) (i : Instr) : 0 < instrCost cfg i := by
  unfold Machine.instrCost
  split
  · exact Nat.one_pos
  · exact h.opcode _

theorem CostsPositive.waitCost {s : State} (h : CostsPositive s.cfg) : 0 < waitCost s := by
  unfold Machine.waitCost
  split
  · exact h.entry
  · exact Nat.one_pos

theorem CostsPositive.stepCost {s : State} (h : CostsPositive s.cfg) (hreset : boundaryArm s ≠ .reset)
    (hhalt : boundaryArm s ≠ .halted) : 0 < stepCost s := by
  unfold Machine.stepCost
  cases harm : boundaryArm s with
  | reset => exact absurd harm hreset
  | halted => exact absurd harm hhalt
  | waiting => exact h.waitCost
  | nmi => exact h.entry
  | irq => exact h.entry
  | instruction => exact h.instrCost _

/-- A step that takes no reset answers a state later by its cost, with the same parameters: its ticks keep the clock. -/
theorem step_cost (s : State) :
    ∃ t, step s = .next t ∧ t.cfg = s.cfg ∧
      t.clock = if boundaryArm s = .reset then 0 else s.clock + stepCost s := by
  obtain ⟨u, hu, hcfg, hclock⟩ := cpuStep_cost s
  have hticks := ticks_viaOnly (stepCost s) u
  exact ⟨_, step_ticks_stepCost hu hclock, hticks.cfg.trans hcfg, hticks.clock.trans hclock⟩

-- The timeline of a call.

theorem timeline_cpuSteps_succ {s t : State} (h : step s = .next t) (k : Nat) :
    timeline (cpuSteps (k + 1)) s = timeline (cpuSteps k) t := by
  rw [cpuSteps, List.replicate_succ, timeline, h]
  rfl

/-- A call that is to run to the clock value `goal` returns with an overrun, `k` steps after `s`: at or past the goal, which
no fewer steps reach, or right after a step that ends it. -/
def ReturnsAfter (goal k overrun : Nat) (s t : State) : Prop :=
  timeline (cpuSteps k) s = .next t ∧
    ((t.clock = goal + overrun ∧
        ∀ (j : Nat) (u : State), j < k → timeline (cpuSteps j) s = .next u →
          u.clock < goal ∧ boundaryArm u ≠ .reset ∧ boundaryArm u ≠ .halted) ∨
      (overrun = 0 ∧ ∃ (j : Nat) (u : State), k = j + 1 ∧ timeline (cpuSteps j) s = .next u ∧
        step u = .next t ∧ (boundaryArm u = .reset ∨ boundaryArm u = .halted)))

theorem returnsAfter_reached {goal : Nat} {s : State} (h : goal ≤ s.clock) :
    ReturnsAfter goal 0 (s.clock - goal) s s :=
  ⟨rfl, .inl ⟨(Nat.add_sub_cancel' h).symm, fun _ _ hj => absurd hj (Nat.not_lt_zero _)⟩⟩

theorem returnsAfter_stopped {goal : Nat} {s t : State} (hstep : step s = .next t)
    (harm : boundaryArm s = .reset ∨ boundaryArm s = .halted) : ReturnsAfter goal 1 0 s t :=
  ⟨timeline_cpuSteps_succ hstep 0, .inr ⟨rfl, 0, s, rfl, rfl, hstep, harm⟩⟩

/-- One more step before the goal, which neither takes a reset nor is halted. -/
theorem ReturnsAfter.step {goal k overrun : Nat} {s s' t : State} (hrest : ReturnsAfter goal k overrun s' t)
    (hstep : step s = .next s') (hclock : s.clock < goal) (hreset : boundaryArm s ≠ .reset)
    (hhalt : boundaryArm s ≠ .halted) : ReturnsAfter goal (k + 1) overrun s t := by
  obtain ⟨hline, ⟨hgoal, hfewer⟩ | ⟨hover, j, u, hk, hu, hend⟩⟩ := hrest
  · refine ⟨(timeline_cpuSteps_succ hstep k).trans hline, .inl ⟨hgoal, fun j u hj hu => ?_⟩⟩
    cases j with
    | zero =>
      obtain rfl := Host.Outcome.next.inj hu
      exact ⟨hclock, hreset, hhalt⟩
    | succ j => exact hfewer j u (Nat.lt_of_succ_lt_succ hj) ((timeline_cpuSteps_succ hstep j).symm.trans hu)
  · refine ⟨(timeline_cpuSteps_succ hstep k).trans hline, .inr ⟨hover, j + 1, u, congrArg Nat.succ hk, ?_, hend⟩⟩
    exact (timeline_cpuSteps_succ hstep j).trans hu

-- The loop.

theorem executeLoop_reached {start target : Nat} {s : State} (h : start + target ≤ s.clock) (fuel : Nat) :
    executeLoop fuel start target s = .returned (s.clock - (start + target)) s := by
  have hnot : ¬s.clock - start < target := by omega
  rw [← Nat.sub_sub]
  cases fuel with
  | zero => exact if_neg hnot
  | succ fuel => exact if_neg hnot

theorem executeLoop_step {start target : Nat} {s t : State} (hbefore : s.clock - start < target)
    (hstep : step s = .next t) (fuel : Nat) :
    executeLoop (fuel + 1) start target s =
      if boundaryArm s = .reset ∨ boundaryArm s = .halted then .returned 0 t
      else executeLoop fuel start target t := by
  rw [executeLoop, if_pos hbefore, hstep]

/-- The loop returns when it may make as many steps as it has clocks to run, by induction on that bound. -/
theorem executeLoop_returns {start target fuel : Nat} {s : State} (hcosts : CostsPositive s.cfg)
    (hstart : start ≤ s.clock) (hfuel : start + target ≤ s.clock + fuel) :
    ∃ k overrun t, executeLoop fuel start target s = .returned overrun t ∧
      ReturnsAfter (start + target) k overrun s t := by
  induction fuel generalizing s with
  | zero => exact ⟨0, _, s, executeLoop_reached hfuel 0, returnsAfter_reached hfuel⟩
  | succ fuel ih =>
    by_cases hgoal : start + target ≤ s.clock
    · exact ⟨0, _, s, executeLoop_reached hgoal _, returnsAfter_reached hgoal⟩
    · obtain ⟨s', hstep, hcfg, hclock⟩ := step_cost s
      rw [executeLoop_step (by omega) hstep]
      by_cases harm : boundaryArm s = .reset ∨ boundaryArm s = .halted
      · exact ⟨1, 0, s', if_pos harm, returnsAfter_stopped hstep harm⟩
      · obtain ⟨hreset, hhalt⟩ := not_or.mp harm
        have hcost := hcosts.stepCost hreset hhalt
        rw [if_neg hreset] at hclock
        rw [if_neg harm]
        obtain ⟨k, overrun, t, hloop, hrest⟩ := ih (hcfg ▸ hcosts) (by omega) (by omega)
        exact ⟨k + 1, overrun, t, hloop, hrest.step hstep (by omega) hreset hhalt⟩

/-- Settles O60: the call is the loop from the clock it starts at, bounded by its target. -/
theorem executeReturns : Obligations.ExecuteReturns := fun _ s hopcode hentry =>
  executeLoop_returns (s := s) ⟨hopcode, hentry⟩ (Nat.le_refl _) (Nat.le_refl _)

end Sys2Proof.Machine
end

section
/-! PROOF. RTI undoes an entry (60_exceptions R404, R408): the frame that the seven stores leave in RAM is what the seven
reads, upwards from SP+1, bring back. -/

namespace Sys2Proof.Machine

-- Stores to distinct RAM bytes.

/-- Bytes stored at distinct addresses of RAM are all there after the last store. -/
theorem readByte_storeRun {ws : List (Word × Byte)} {s : State} (hdistinct : (ws.map Prod.fst).Nodup)
    (hram : ∀ w ∈ ws, owner s w.1 = .ram) (hmem : Memory.wf s.mem = true) :
    ∀ w ∈ ws, readByte (storeRun ws s).mem w.1.toNat = w.2 := by
  induction ws generalizing s with
  | nil => exact fun _ hw => absurd hw List.not_mem_nil
  | cons w rest ih =>
    obtain ⟨hnew, hrest⟩ := List.nodup_cons.mp hdistinct
    obtain ⟨hw, hrestRam⟩ := List.forall_mem_cons.mp hram
    refine List.forall_mem_cons.mpr ⟨?_, ?_⟩
    · have hkept : ∀ a ∈ rest.map Prod.fst, w.1.toNat ≠ a.toNat := fun a ha heq =>
        hnew (BitVec.eq_of_toNat_eq heq ▸ ha)
      exact ((storeRun_frame rest _).mem _ hkept).trans (readByte_store8_self hw hmem w.2)
    · exact ih hrest (fun w' hw' => (owner_store8 s _ _ _).trans (hrestRam w' hw')) (store8_memory_wf _ _ hmem)

-- The frame.

/-- The frame lies at the seven addresses from SP down, modulo 65536. -/
theorem interruptFrame_addresses (k : Cpu) :
    (interruptFrame k).map Prod.fst = (List.range 7).map fun j => k.sp - BitVec.ofNat 16 j := by
  simp [interruptFrame, List.range_succ]

theorem interruptFrame_address_mem {k : Cpu} {w : Word × Byte} (h : w ∈ interruptFrame k) :
    ∃ j < 7, w.1 = k.sp - BitVec.ofNat 16 j := by
  have haddress := List.mem_map_of_mem (f := Prod.fst) h
  rw [interruptFrame_addresses, List.mem_map] at haddress
  obtain ⟨j, hj, heq⟩ := haddress
  exact ⟨j, List.mem_range.mp hj, heq.symm⟩

theorem interruptFrame_nodup (k : Cpu) : ((interruptFrame k).map Prod.fst).Nodup := by
  rw [interruptFrame_addresses]
  refine List.Nodup.map_on (fun i hi j hj heq => ?_) List.nodup_range
  rw [List.mem_range] at hi hj
  bv_omega

/-- RTI reads the addresses of the frame in the other order. -/
theorem addressesFrom_eq_reverse_frame (k : Cpu) :
    addressesFrom (k.sp - 7 + 1) 7 = ((interruptFrame k).map Prod.fst).reverse := by
  have haddress (c : Nat) (hc : c < 7) :
      k.sp - 7 + 1 + BitVec.ofNat 16 c = k.sp - BitVec.ofNat 16 (6 - c) := by bv_omega
  rw [interruptFrame_addresses]
  refine List.ext_getElem (by simp [addressesFrom]) fun c hc _ => ?_
  rw [addressesFrom, List.length_map, List.length_range] at hc
  simpa [addressesFrom] using haddress c hc

/-- The reads of RTI, in a state whose RAM holds the frame of `k` below SP, have no side effect. -/
theorem loadRun_frame {k : Cpu} {u : State} (hsp : u.cpu.sp = k.sp - 7)
    (hframe : ∀ w ∈ interruptFrame k, owner u w.1 = .ram ∧ readByte u.mem w.1.toNat = w.2) :
    loadRun (addressesFrom (u.cpu.sp + 1) 7) u = (((interruptFrame k).map Prod.snd).reverse, u) := by
  have hplain : ∀ a ∈ ((interruptFrame k).map Prod.fst).reverse, owner u a ≠ .via := by
    intro a ha
    obtain ⟨w, hw, rfl⟩ := List.mem_map.mp (List.mem_reverse.mp ha)
    rw [(hframe w hw).1]
    decide
  have hbytes : (interruptFrame k).map (plainByte u ∘ Prod.fst) = (interruptFrame k).map Prod.snd := by
    refine List.map_congr_left fun w hw => ?_
    obtain ⟨hram, hbyte⟩ := hframe w hw
    rw [Function.comp_apply, plainByte, hram]
    exact hbyte
  rw [hsp, addressesFrom_eq_reverse_frame, loadRun_plain hplain, List.map_reverse, List.map_map, hbytes]

-- The return.

/-- The condition-code byte of one record sets the flags of another. -/
theorem setCcr_ccr (k k' : Cpu) :
    Cpu.setCcr k.ccr k' = { k' with h := k.h, i := k.i, n := k.n, z := k.z, v := k.v, c := k.c } := by
  obtain ⟨-, -, hh, hi, hn, hz, hv, hc⟩ := byteOfBits_getLsbD true true k.h k.i k.n k.z k.v k.c
  simp only [Cpu.setCcr, Cpu.ccr, hh, hi, hn, hz, hv, hc]

/-- RTI where the frame of `k` lies in RAM below SP: every register and flag is that of `k`, and memory alone is read. -/
theorem exec_rti_of_frame {k : Cpu} {u : State} (hsp : u.cpu.sp = k.sp - 7)
    (hframe : ∀ w ∈ interruptFrame k, owner u w.1 = .ram ∧ readByte u.mem w.1.toNat = w.2) :
    exec .rti u = .next (completed .rti u k) := by
  have hback : u.cpu.sp + 7 = k.sp := by rw [hsp]; bv_omega
  refine (finish_pullAll .rti u).trans ?_
  rw [loadRun_frame hsp hframe, hback]
  refine congrArg (fun k' => Host.Outcome.next (completed .rti u k')) ?_
  simp [interruptFrame, setCcr_ccr, joinBytes_hiByte_loByte]

-- The entry.

/-- The three entries are the push-and-vector sequence from the same registers and bytes. -/
theorem entry_eq_entered {s t : State} (h : t = takeNmi s ∨ t = takeIrq s ∨ exec .swi s = .next t) :
    ∃ vec n r, t = entered vec n { s with req := r } := by
  obtain rfl | rfl | hswi := h
  · exact ⟨_, _, _, takeNmi_eq_entered s⟩
  · exact ⟨_, _, s.req, takeIrq_eq_entered s⟩
  · exact ⟨_, _, s.req, (Host.Outcome.next.inj ((exec_swi s).symm.trans hswi)).symm⟩

theorem entered_mem (vec : Word) (n : Nat) (s : State) :
    (entered vec n s).mem = (storeRun (interruptFrame s.cpu) s).mem := by
  rw [entered]
  exact (load16_viaOnly vec _).mem

/-- An entry with seven bytes of RAM below SP leaves the frame there. -/
theorem entered_frame {s : State} (hram : ramDown s s.cpu.sp 7) (hmem : Memory.wf s.mem = true) (vec : Word) (n : Nat) :
    ∀ w ∈ interruptFrame s.cpu, readByte (entered vec n s).mem w.1.toNat = w.2 := by
  rw [entered_mem]
  refine readByte_storeRun (interruptFrame_nodup s.cpu) (fun w hw => ?_) hmem
  obtain ⟨j, hj, haddress⟩ := interruptFrame_address_mem hw
  rw [haddress]
  exact hram j hj

/-- Settles O10: the handler keeps the frame that the entry left, and RTI reads it. -/
theorem rtiUndoesAnEntry : Obligations.RtiUndoesAnEntry := by
  intro s t u hram hmem hentry hcfg husp hbytes
  obtain ⟨vec, n, r, rfl⟩ := entry_eq_entered hentry
  have hstored := entered_frame (s := { s with req := r }) hram hmem vec n
  refine ⟨_, exec_rti_of_frame (k := s.cpu) husp fun w hw => ?_, rfl, rfl, rfl, rfl⟩
  obtain ⟨j, hj, haddress⟩ := interruptFrame_address_mem hw
  refine ⟨?_, ?_⟩
  · rw [owner, hcfg, haddress]
    exact hram j hj
  · rw [← hstored w hw, haddress]
    exact hbytes j hj

end Sys2Proof.Machine
end

section
/-! PROOF. The calls of the environment (60_exceptions R428, 46_via_registers R330, R331, R334): what they write at most, and
that `irqPending` moves with the line. -/

namespace Sys2Proof.Machine

-- The frame.

/-- `t` differs from `s` at most in the VIA record and the latches. -/
def DevicesOnly (s t : State) : Prop := t = { s with via := t.via, req := t.req }

namespace DevicesOnly

variable {s t : State}

theorem cpu (h : DevicesOnly s t) : t.cpu = s.cpu := (congrArg State.cpu h :)
theorem mem (h : DevicesOnly s t) : t.mem = s.mem := (congrArg State.mem h :)
theorem clock (h : DevicesOnly s t) : t.clock = s.clock := (congrArg State.clock h :)
theorem cfg (h : DevicesOnly s t) : t.cfg = s.cfg := (congrArg State.cfg h :)

end DevicesOnly

theorem ViaOnly.devicesOnly {s t : State} (h : ViaOnly s t) : DevicesOnly s t := by
  rw [DevicesOnly, h.req]
  exact h

theorem envStep_devicesOnly (e : EnvCall) (s : State) : DevicesOnly s (envStep e s) := by
  cases e
  case resetEvent => exact (viaReset_viaOnly (requestReset s)).devicesOnly
  case setCA1 level => exact (setCA1_viaOnly level s).devicesOnly
  case setCA2 level => exact (setCA2_viaOnly level s).devicesOnly
  case setCB1 level => exact (setCB1_viaOnly level s).devicesOnly
  case setCB2 level => exact (setCB2_viaOnly level s).devicesOnly
  all_goals rfl

-- The line.

/-- `irqPending` after a recomputation of the line that starts from the line of `s`. -/
theorem IrqFollows.irqPending {s t : State} (h : IrqFollows s t) :
    t.req.irqPending = if t.via.irqLine = s.via.irqLine then s.req.irqPending else t.via.irqLine := by
  rw [h.line]
  exact congrArg (fun u : State => u.req.irqPending) h.pending

theorem setFlag_irqFollows (src : IrqSource) (s : State) : IrqFollows s (setFlag src s) :=
  updateIrq_mapVia_irqFollows rfl

/-- Raising a flag can only raise the composite bit (10_state R41). -/
theorem setFlag_composite {s : State} (src : IrqSource) (h : s.via.composite = true) :
    (setFlag src s).via.composite = true := by
  have hier : (setFlag src s).via.ier = s.via.ier := (congrArg Via.ier (setFlag_via src s) :)
  rw [composite_eq_decide, decide_eq_true_eq] at h ⊢
  obtain ⟨i, hifr, henabled⟩ := h
  exact ⟨i, by rw [setFlag_ifr_getLsbD, hifr, Bool.true_or], hier ▸ henabled⟩

/-- The line of `t` is the composite bit and that of `s` or higher, and `irqPending` has risen with it or stayed. -/
structure LineRises (s t : State) : Prop where
  line : t.via.irqLine = t.via.composite
  moves :
    (t.via.irqLine = s.via.irqLine ∧ t.req.irqPending = s.req.irqPending) ∨
      (s.via.irqLine = false ∧ t.via.irqLine = true ∧ t.req.irqPending = true)

namespace LineRises

variable {s t u : State}

theorem refl (h : s.via.irqLine = s.via.composite) : LineRises s s := ⟨h, .inl ⟨rfl, rfl⟩⟩

/-- A line that has risen stays up, so of two rises at most one is a change. -/
theorem trans (h : LineRises s t) (h' : LineRises t u) : LineRises s u := by
  refine ⟨h'.line, ?_⟩
  obtain ⟨hline, hpending⟩ | ⟨hlow, hhigh, hpending⟩ := h.moves
  · rw [← hline, ← hpending]
    exact h'.moves
  · obtain ⟨hline', hpending'⟩ | ⟨hlow', -⟩ := h'.moves
    · exact .inr ⟨hlow, hline'.trans hhigh, hpending'.trans hpending⟩
    · exact absurd (hhigh.symm.trans hlow') Bool.true_eq_false.mp

/-- A change of other fields than the line, the flags and the enables. -/
theorem mapVia {f : Via → Via} (h : LineRises s t) (hline : (f t.via).irqLine = t.via.irqLine)
    (hcomposite : (f t.via).composite = t.via.composite) : LineRises s (mapVia f t) :=
  h.trans ⟨hline.trans (h.line.trans hcomposite.symm), .inl ⟨hline, rfl⟩⟩

/-- A flag is raised: the line stays, or it was low and rises. -/
theorem setFlag (src : IrqSource) (h : LineRises s t) : LineRises s (setFlag src t) := by
  have hfollows := setFlag_irqFollows src t
  refine h.trans ⟨hfollows.line, ?_⟩
  rw [hfollows.irqPending]
  cases hline : t.via.irqLine with
  | true =>
    have hhigh := hfollows.line.trans (setFlag_composite src (h.line.symm.trans hline))
    exact .inl ⟨hhigh, if_pos hhigh⟩
  | false =>
    cases hnew : (Machine.setFlag src t).via.irqLine with
    | true => exact .inr ⟨rfl, rfl, rfl⟩
    | false => exact .inl ⟨rfl, rfl⟩

/-- One phase of the shift register raises its flag at most (47_via_tick R352, R355). -/
theorem srStep (h : LineRises s t) : LineRises s (srStep t) := by
  unfold Machine.srStep
  split
  · split
    · exact h.mapVia rfl rfl
    · have hshift : LineRises s (Machine.mapVia srShift t) := h.mapVia rfl rfl
      dsimp only
      split
      · exact (hshift.setFlag .sr).mapVia rfl rfl
      · exact hshift
  · exact h

theorem irqPending (h : LineRises s t) :
    t.req.irqPending = if t.via.irqLine = s.via.irqLine then s.req.irqPending else t.via.irqLine := by
  obtain ⟨hline, hpending⟩ | ⟨hlow, hhigh, hpending⟩ := h.moves
  · rw [if_pos hline, hpending]
  · rw [if_neg (by simp [hlow, hhigh]), hpending, hhigh]

end LineRises

-- The control lines.

section ControlLines

variable {s : State} (h : s.via.irqLine = s.via.composite) (level : Bool)

include h

theorem setCA1_lineRises : LineRises s (setCA1 level s) := by
  rw [setCA1_eq]
  split
  · exact (((LineRises.refl h).mapVia rfl rfl).setFlag .ca1).mapVia rfl rfl
  · exact (LineRises.refl h).mapVia rfl rfl

theorem setCA2_lineRises : LineRises s (setCA2 level s) := by
  rw [setCA2_eq]
  split
  · exact ((LineRises.refl h).mapVia rfl rfl).setFlag .ca2
  · exact (LineRises.refl h).mapVia rfl rfl

theorem setCB1_lineRises : LineRises s (setCB1 level s) := by
  have hedge : LineRises s (edgeCB1 level s) := by
    unfold edgeCB1
    dsimp only
    split
    · exact (((LineRises.refl h).mapVia rfl rfl).setFlag .cb1).mapVia rfl rfl
    · exact (LineRises.refl h).mapVia rfl rfl
  rw [setCB1_eq]
  split
  · exact hedge.srStep
  · exact hedge

theorem setCB2_lineRises : LineRises s (setCB2 level s) := by
  rw [setCB2_eq]
  split
  · exact ((LineRises.refl h).mapVia rfl rfl).setFlag .cb2
  · exact (LineRises.refl h).mapVia rfl rfl

end ControlLines

/-- The control lines raise flags at most; the Reset event recomputes the line once (R331, 70_reset_and_hazards R450). -/
theorem envStep_irqPending (e : EnvCall) {s : State} (h : s.via.irqLine = s.via.composite) :
    (envStep e s).req.irqPending =
      if (envStep e s).via.irqLine = s.via.irqLine then s.req.irqPending else (envStep e s).via.irqLine := by
  cases e
  case resetEvent =>
    have hreset : IrqFollows (requestReset s) (viaReset (requestReset s)) := updateIrq_mapVia_irqFollows rfl
    exact hreset.irqPending
  case setCA1 level => exact (setCA1_lineRises h level).irqPending
  case setCA2 level => exact (setCA2_lineRises h level).irqPending
  case setCB1 level => exact (setCB1_lineRises h level).irqPending
  case setCB2 level => exact (setCB2_lineRises h level).irqPending
  all_goals exact (if_pos rfl).symm

/-- Settles O59: the latch and port calls are by evaluation, the frame and the line by the lemmas above. -/
theorem environmentCalls : Obligations.EnvironmentCalls := by
  refine fun s => ⟨rfl, rfl, rfl, fun _ => rfl, rfl, rfl, fun _ => rfl, fun _ => rfl, fun e => ?_⟩
  have hframe := envStep_devicesOnly e s
  exact ⟨hframe.cpu, hframe.mem, hframe.clock, hframe.cfg, envStep_irqPending e⟩

end Sys2Proof.Machine
end
